-- ==== Sys2Proof/Word.lean ====
section
/-! DEFINITION. The widths of the values of crc32_lut (spec/00_scope.md R7, R9): every value is an unsigned
bit vector of a fixed width, and nothing in the block is signed. -/

namespace Sys2Proof

/-- An 8-bit value: a tail byte, a LUT index (`LUT_INDEX_WIDTH`), an opcode (R7, R42). -/
abbrev Byte := BitVec 8

/-- A 32-bit value: `ACC_WIDTH`, `LUT_WIDTH`, a data word (R7). -/
abbrev Word := BitVec 32

/-- A 40-bit command frame, `CMD_WIDTH` (R7, R42). -/
abbrev Frame := BitVec 40

/-- The LUT index space: 256 locations of one 32-bit constant each, every index populated (R25, R34). -/
abbrev Lut := Vector Word 256

end Sys2Proof
end

