-- ==== Sys2Proof/Machine/Operands.lean ====
section
/-! DEFINITION. Fields of the frame (spec/30_encoding.md R42), byte lanes and little-endian words
(spec/20_memory.md R27, R28; spec/00_scope.md R9), and the packing of tail bytes (spec/42_tail.md R68). -/

namespace Sys2Proof.Machine

/-- `op` = frame bits 39:32 (R42). -/
def frameOp (f : Frame) : Byte := f.extractLsb' 32 8

/-- `data` = frame bits 31:0 (R42). -/
def frameData (f : Frame) : Word := f.extractLsb' 0 32

/-- The frame `{cmd_op, cmd_data}` (R41). -/
def mkFrame (op : Byte) (data : Word) : Frame := op ++ data

/-- Lane `k` of a word: bits `[8k+7:8k]` (R9, R13, R42). -/
def lane (k : Nat) (v : Word) : Byte := v.extractLsb' (8 * k) 8

/-- `zext_32` of a byte (R10). -/
def zext32 (b : Byte) : Word := b.setWidth 32

/-- The data word of four stream bytes: byte 0 is least significant (R27). -/
def leWord (b0 b1 b2 b3 : Byte) : Word :=
  zext32 b0 ||| (zext32 b1 <<< 8) ||| (zext32 b2 <<< 16) ||| (zext32 b3 <<< 24)

/-- The synthetic word of a one-byte tail (R68). -/
def pack1 (b0 : Byte) : Word := zext32 b0 <<< 24

/-- The synthetic word of a two-byte tail (R68; spec/90_conflicts.md C1). -/
def pack2 (b0 b1 : Byte) : Word := (zext32 b0 ||| (zext32 b1 <<< 8)) <<< 16

/-- The synthetic word of a three-byte tail (R68). -/
def pack3 (b0 b1 b2 : Byte) : Word :=
  ((zext32 b0 ||| (zext32 b1 <<< 8)) <<< 8) ||| (zext32 b2 <<< 24)

end Sys2Proof.Machine
end

