-- ==== Sys2Proof/Syntax.lean ====
section
/-! DEFINITION. The commands of CRC32-CMD version 1 (spec/30_encoding.md R43), what a frame decodes to (R48),
and the assembler's source lines (R50, R51). -/

namespace Sys2Proof

/-- The eight commands, one constructor per row of spec/opcode_table.json. Operands are taken from the frame
unchanged, each in its own width (R45), so every term of this type is well-formed by its type. -/
inductive Instr where
  | nop                          -- R78
  | init                         -- R76
  | seed   (s : Word)            -- R77
  | foldw  (w : Word)            -- R66
  | foldt1 (b0 : Byte)           -- R73
  | foldt2 (b0 b1 : Byte)        -- R74
  | foldt3 (b0 b1 b2 : Byte)     -- R75
  | lutrd  (i : Byte)            -- R60
  deriving DecidableEq, Repr

/-- Why a frame has no meaning: the closed list of R88. -/
inductive RefusalReason where
  /-- `op` is `0x08` to `0xFF` (R47). -/
  | reservedOpcode
  /-- A must-be-zero bit of the opcode is 1 (R46). -/
  | nonzeroReservedBits
  deriving DecidableEq, Repr

/-- What a frame decodes to (R48): a command, or a refusal with its one reason. -/
inductive Decoded where
  | command (i : Instr)
  | refused (r : RefusalReason)
  deriving DecidableEq, Repr

/-- The assembler's mnemonics: the eight commands of R50 and the four pseudo-commands of R51. -/
inductive AsmOp where
  | nop | init | seed | foldw | foldt1 | foldt2 | foldt3 | lutrd
  | foldb4 | bytes | compute | resume
  deriving DecidableEq, Repr

/-- One line of command text after reading its numbers (R50). An operand is a number of any size here: whether it
fits its field is the check of WellFormed.lean. -/
structure SourceLine where
  op       : AsmOp
  operands : List Nat
  deriving DecidableEq, Repr

/-- Why a line of command text is an assembly error. R50 names only the operand that does not fit; the other names
are the model's (DESIGN CHOICE, log 13). -/
inductive AsmError where
  /-- The mnemonic is not one of R50 and R51. -/
  | unknownMnemonic
  /-- An operand is not a decimal number and not a hexadecimal number with `0x` (R50). -/
  | badNumber
  /-- The line has more or fewer operands than its syntax (R50, R51). -/
  | wrongOperandCount
  /-- An operand does not fit its field: "an assembly error, not a truncation" (R50). -/
  | operandTooWide
  deriving DecidableEq, Repr

end Sys2Proof
end

