-- ==== Sys2Proof/WellFormed.lean ====
section
/-! DEFINITION. What is well-formed: a frame (spec/30_encoding.md R43, R46, R47) and a line of command text (R50,
R51). A command (Instr) needs no check: its operands have exactly the widths of their fields (R45). -/

namespace Sys2Proof

/-- The must-be-zero bits of `data` for each opcode; none for a reserved opcode (the table of R43). -/
def mustBeZero (op : Byte) : Option Word :=
  match op.toNat with
  | 0 => some 0xFFFFFFFF#32
  | 1 => some 0xFFFFFFFF#32
  | 2 => some 0x00000000#32
  | 3 => some 0x00000000#32
  | 4 => some 0xFFFFFF00#32
  | 5 => some 0xFFFF0000#32
  | 6 => some 0xFF000000#32
  | 7 => some 0xFFFFFF00#32
  | _ => none

/-- A frame is well-formed when its opcode is not reserved and none of its must-be-zero bits is 1 (R46, R47). -/
def frameWellFormed (f : Frame) : Bool :=
  match mustBeZero (Machine.frameOp f) with
  | some mask => Machine.frameData f &&& mask == 0#32
  | none => false

/-- The number of operands of a line (R50, R51): `crc.bytes` and `crc.compute` take any number of bytes, and
`crc.resume` a start value and any number of bytes. -/
def arityOk (op : AsmOp) (n : Nat) : Bool :=
  match op with
  | .nop => n == 0
  | .init => n == 0
  | .seed => n == 1
  | .foldw => n == 1
  | .foldt1 => n == 1
  | .foldt2 => n == 2
  | .foldt3 => n == 3
  | .lutrd => n == 1
  | .foldb4 => n == 4
  | .bytes => true
  | .compute => true
  | .resume => 1 ≤ n

/-- How many of a line's leading operands are 32-bit values; all others are bytes or an 8-bit index (R50, R51). -/
def wordOperands (op : AsmOp) : Nat :=
  match op with
  | .seed => 1
  | .foldw => 1
  | .resume => 1
  | .nop => 0
  | .init => 0
  | .foldt1 => 0
  | .foldt2 => 0
  | .foldt3 => 0
  | .lutrd => 0
  | .foldb4 => 0
  | .bytes => 0
  | .compute => 0

/-- Every operand fits its field: 32 bits for `s`, `w` and a start value, 8 bits for a byte or an index (R50). -/
def operandsFit (line : SourceLine) : Bool :=
  (line.operands.take (wordOperands line.op)).all (fun v => decide (v < 2 ^ 32)) &&
    (line.operands.drop (wordOperands line.op)).all (fun v => decide (v < 2 ^ 8))

/-- A line of command text is well-formed when it has its operands and each fits its field (R50, R51). -/
def lineWellFormed (line : SourceLine) : Bool :=
  arityOk line.op line.operands.length && operandsFit line

end Sys2Proof
end

