-- ==== Sys2Proof/Decode.lean ====
section
/-! DEFINITION. The decoder, total over all frames (spec/30_encoding.md R48), the encoder, and the match and mask
rows of R44. -/

namespace Sys2Proof

open Sys2Proof.Machine

/-- A command whose must-be-zero bits are `reserved`: refused when one of them is 1 (R46). -/
def ifReservedZero {n : Nat} (reserved : BitVec n) (i : Instr) : Decoded :=
  if reserved = 0#n then .command i else .refused .nonzeroReservedBits

/-- The decoder of R48, case by case. -/
def decode (f : Frame) : Decoded :=
  let data := frameData f
  match (frameOp f).toNat with
  | 0 => ifReservedZero data .nop
  | 1 => ifReservedZero data .init
  | 2 => .command (.seed data)
  | 3 => .command (.foldw data)
  | 4 => ifReservedZero (data.extractLsb' 8 24) (.foldt1 (lane 0 data))
  | 5 => ifReservedZero (data.extractLsb' 16 16) (.foldt2 (lane 0 data) (lane 1 data))
  | 6 => ifReservedZero (data.extractLsb' 24 8) (.foldt3 (lane 0 data) (lane 1 data) (lane 2 data))
  | 7 => ifReservedZero (data.extractLsb' 8 24) (.lutrd (lane 0 data))
  | _ => .refused .reservedOpcode

/-- The frame of a command: the bit patterns of R44, most significant field first. -/
def encode (i : Instr) : Frame :=
  match i with
  | .nop => mkFrame 0x00#8 0#32
  | .init => mkFrame 0x01#8 0#32
  | .seed s => mkFrame 0x02#8 s
  | .foldw w => mkFrame 0x03#8 w
  | .foldt1 b0 => mkFrame 0x04#8 (0#24 ++ b0)
  | .foldt2 b0 b1 => mkFrame 0x05#8 (0#16 ++ (b1 ++ b0))
  | .foldt3 b0 b1 b2 => mkFrame 0x06#8 (0#8 ++ (b2 ++ (b1 ++ b0)))
  | .lutrd i => mkFrame 0x07#8 (0#24 ++ i)

/-- A row of the match and mask table of R44. -/
structure OpcodeRow where
  matchBits : Frame
  mask      : Frame
  deriving DecidableEq, Repr

/-- The row of R44 that a command belongs to. -/
def opcodeRow (i : Instr) : OpcodeRow :=
  match i with
  | .nop => ⟨0x0000000000#40, 0xFFFFFFFFFF#40⟩
  | .init => ⟨0x0100000000#40, 0xFFFFFFFFFF#40⟩
  | .seed _ => ⟨0x0200000000#40, 0xFF00000000#40⟩
  | .foldw _ => ⟨0x0300000000#40, 0xFF00000000#40⟩
  | .foldt1 _ => ⟨0x0400000000#40, 0xFFFFFFFF00#40⟩
  | .foldt2 _ _ => ⟨0x0500000000#40, 0xFFFFFF0000#40⟩
  | .foldt3 _ _ _ => ⟨0x0600000000#40, 0xFFFF000000#40⟩
  | .lutrd _ => ⟨0x0700000000#40, 0xFFFFFFFF00#40⟩

/-- The whole table of R44, in its order. -/
def opcodeRows : List OpcodeRow :=
  [⟨0x0000000000#40, 0xFFFFFFFFFF#40⟩, ⟨0x0100000000#40, 0xFFFFFFFFFF#40⟩,
   ⟨0x0200000000#40, 0xFF00000000#40⟩, ⟨0x0300000000#40, 0xFF00000000#40⟩,
   ⟨0x0400000000#40, 0xFFFFFFFF00#40⟩, ⟨0x0500000000#40, 0xFFFFFF0000#40⟩,
   ⟨0x0600000000#40, 0xFFFF000000#40⟩, ⟨0x0700000000#40, 0xFFFFFFFF00#40⟩]

/-- A frame `f` is the command of a row "when `(f & mask) == match`" (R44). -/
def rowMatches (r : OpcodeRow) (f : Frame) : Bool := f &&& r.mask == r.matchBits

/-- The frame whose bits are the low `nbits` bits of `w`, every bit above them 0: the frame is one word of 40 bits
whose bit 0 is its least significant (R42; log 16). -/
def tableFrame (nbits w : Nat) : Frame := BitVec.ofNat 40 (w % 2 ^ nbits)

/-- The command the decoder reads from a row of spec/opcode_table.json; none for a refused frame, and none for a row
wider than a frame, since every command is exactly 40 bits (R49). -/
def decodeTableWord (nbits w : Nat) : Option Instr :=
  if nbits ≤ 40 then
    match decode (tableFrame nbits w) with
    | .command i => some i
    | .refused _ => none
  else none

end Sys2Proof
end

