-- ==== Sys2Proof/Machine/State.lean ====
section
/-! DEFINITION. The state of one instance (spec/10_state.md R15), its reset value (R24), and the reasons a step can
stop (spec/60_exceptions.md R86, R88). -/

namespace Sys2Proof.Machine

/-- The parameter `RESET_STYLE`: synchronous or asynchronous, and the polarity (spec/00_scope.md R8). -/
structure ResetStyle where
  synchronous : Bool
  activeHigh  : Bool
  deriving DecidableEq, Repr

/-- What the host drives on the input ports at one rising edge of `clk` (spec/30_encoding.md R40). `rst` is true when
reset is active, whatever its polarity (log 14). -/
structure Pins where
  rst      : Bool
  cmdValid : Bool
  cmdOp    : Byte
  cmdData  : Word
  deriving DecidableEq, Repr

/-- The state of one instance: exactly the rows of R15, the two model-only fields the spec names (R20, R89), and two
fields of this model's own, `port` and `draws`. -/
structure State where
  /-- `ACC`, the accumulator (R16, R17). -/
  acc     : Word
  /-- `LUT_Q`, the result of the most recent LUTRD (R18). -/
  lutQ    : Word
  /-- `LUT`, the read-only table, the parameter `CRC_TABLE` (R19, R25; log 8). -/
  lut     : Lut
  /-- `busy`, the handshake state (R23). -/
  busy    : Bool
  /-- `cmd_idx`, how many commands the run has accepted; model-only (R20). -/
  cmdIdx  : Nat
  /-- The refused mark; model-only (spec/60_exceptions.md R89). -/
  refused : Bool
  /-- What the host drives at the coming edges, next first; the model's own field (log 1). -/
  port    : List Pins
  /-- How many free values a refused run has taken; the model's own field (log 6). -/
  draws   : Nat
  deriving DecidableEq, Repr

/-- The machine right after reset, at the start of a run, with nothing offered yet (R24; log 1, log 11). -/
def State.reset : State where
  acc     := Config.accReset
  lutQ    := Config.lutQReset
  lut     := Config.crcTable
  busy    := false
  cmdIdx  := 0
  refused := false
  port    := []
  draws   := 0

/-- The faults of the block: none. "The block raises no exception" (spec/60_exceptions.md R86), so the type has no
constructor and no step can answer a fault. Safe: there is nothing to leave out (log 12). -/
inductive Fault where
  deriving DecidableEq, Repr

/-- Why a step has no meaning. -/
inductive Refusal where
  /-- Raised by an arm of exec that has no meaning yet; no arm raises it here. Safe: the run stops. -/
  | notModelled (mnemonic : String)
  /-- Raised by accept (Machine/Port.lean) when the accepted frame is one the spec does not define, with the reason of
  spec/60_exceptions.md R88. Safe: the step gives no next state, and the spec gives none either (R47, R88). -/
  | undefinedFrame (reason : RefusalReason)
  deriving DecidableEq, Repr

end Sys2Proof.Machine
end

