-- ==== Sys2Proof/Machine/Ops.lean ====
section
/-! DEFINITION. The named operations over the registers, the table and the model-only fields, that the meanings and
the port are written in (spec/00_scope.md R11), and the one operation that takes a refusal (spec/60_exceptions.md
R88, R89). The block has no exceptions to take (R86, R92). -/

namespace Sys2Proof.Machine

/-- `ACC <- v` (R11, R16). -/
def State.setAcc (s : State) (v : Word) : State := { s with acc := v }

/-- `LUT_Q <- v` (R11, R18). -/
def State.setLutQ (s : State) (v : Word) : State := { s with lutQ := v }

/-- `cmd_idx <- cmd_idx + 1` (R11, R20). -/
def State.advanceCmd (s : State) : State := { s with cmdIdx := s.cmdIdx + 1 }

/-- `LutRead(i)`: the constant at an 8-bit index; total, without side effect (spec/40_lut.md R52). -/
def lutRead (t : Lut) (i : Byte) : Word := t[i.toNat]'i.isLt

/-- Nothing is claimed of `ACC` and `LUT_Q` any more: each takes a free value (spec/60_exceptions.md R88; log 6). -/
def State.unclaim (s : State) : State :=
  { s with
    acc := Config.freeWord s.draws
    lutQ := Config.freeWord (s.draws + 1)
    draws := s.draws + 2 }

/-- In a run whose refused mark is set, whatever an event writes to `ACC` or `LUT_Q` is no claim (R88, R89; log 7). -/
def State.settle (s : State) : State := if s.refused then s.unclaim else s

/-- Taking a refusal: the command position advances ("refused ones included", R20), the mark is set, and `ACC` and
`LUT_Q` have no claimed value from here on (R88, R89). -/
def State.takeRefusal (s : State) : State := ({ s with cmdIdx := s.cmdIdx + 1, refused := true }).unclaim

/-- The reset event (spec/70_reset_and_hazards.md R100): every register takes its reset value of R24; the LUT,
`cmd_idx` and the refused mark stay. Power-on is this event too (R99, R100). -/
def State.resetEvent (s : State) : State :=
  ({ s with acc := Config.accReset, lutQ := Config.lutQReset, busy := false }).settle

end Sys2Proof.Machine
end

