-- ==== Sys2Proof/Machine/Fold.lean ====
section
/-! DEFINITION. The folding engine: `update` (spec/41_fold.md R61, R62) and FOLDW (R66). -/

namespace Sys2Proof.Machine

/-- One table step: the index is the top byte before the shift, and the shift keeps 32 bits (R61, R62). -/
def tableStep (t : Lut) (c : Word) : Word := (c <<< 8) ^^^ lutRead t (c.extractLsb' 24 8)

/-- `update(crc, word)`: XOR the word in once, then four table steps (R61). -/
def update (t : Lut) (crc word : Word) : Word :=
  tableStep t (tableStep t (tableStep t (tableStep t (crc ^^^ word))))

/-- `ACC <- update(ACC, word)` and the command position advances: what every fold command does (R66, R70). -/
def State.fold (s : State) (word : Word) : State := (s.setAcc (update s.lut s.acc word)).advanceCmd

/-- FOLDW: fold one full word (R66). -/
def execFoldw (w : Word) (s : State) : Host.Outcome State Fault Refusal := .next (s.fold w)

end Sys2Proof.Machine
end

