-- ==== Sys2Proof/Machine/Lut.lean ====
section
/-! DEFINITION. The table family: the generation rule of the default table (spec/40_lut.md R57) and LUTRD (R60). -/

namespace Sys2Proof.Machine

/-- One round of the loop of R57: shift left, and XOR the polynomial in when bit 31 was 1. -/
def genStep (c : Word) : Word :=
  if c.msb then (c <<< 1) ^^^ Config.polynomial else c <<< 1

/-- `gen(b)` of R57: eight rounds from `zext_32(b) << 24`. -/
def gen (b : Byte) : Word := genStep^[8] (b.setWidth 32 <<< 24)

/-- LUTRD: read one table entry into `LUT_Q` (R60). -/
def execLutrd (i : Byte) (s : State) : Host.Outcome State Fault Refusal :=
  .next (s.setLutQ (lutRead s.lut i)).advanceCmd

end Sys2Proof.Machine
end

