-- ==== Sys2Proof/Machine/Sequence.lean ====
section
/-! DEFINITION. NOP, INIT and SEED (spec/43_sequence.md R76, R77, R78). -/

namespace Sys2Proof.Machine

/-- NOP: only the command position advances (R78). -/
def execNop (s : State) : Host.Outcome State Fault Refusal := .next s.advanceCmd

/-- INIT: `ACC <- 0xFFFFFFFF` (R76). -/
def execInit (s : State) : Host.Outcome State Fault Refusal := .next (s.setAcc Config.initValue).advanceCmd

/-- SEED: `ACC <- s` for any 32-bit value (R77). -/
def execSeed (v : Word) (s : State) : Host.Outcome State Fault Refusal := .next (s.setAcc v).advanceCmd

end Sys2Proof.Machine
end

