-- ==== Sys2Proof/Machine/Tail.lean ====
section
/-! DEFINITION. The tail folds FOLDT1, FOLDT2 and FOLDT3 (spec/42_tail.md R73, R74, R75): the packed word is folded
exactly like a full word (R70). -/

namespace Sys2Proof.Machine

/-- FOLDT1 (R73). -/
def execFoldt1 (b0 : Byte) (s : State) : Host.Outcome State Fault Refusal := .next (s.fold (pack1 b0))

/-- FOLDT2 (R74). -/
def execFoldt2 (b0 b1 : Byte) (s : State) : Host.Outcome State Fault Refusal := .next (s.fold (pack2 b0 b1))

/-- FOLDT3 (R75). -/
def execFoldt3 (b0 b1 b2 : Byte) (s : State) : Host.Outcome State Fault Refusal := .next (s.fold (pack3 b0 b1 b2))

end Sys2Proof.Machine
end

