-- ==== Sys2Proof/Machine/Dispatch.lean ====
section
/-! DEFINITION. One arm per command (spec/30_encoding.md R43). -/

namespace Sys2Proof.Machine

def exec (i : Instr) (s : State) : Host.Outcome State Fault Refusal :=
  match i with
  | .nop => Sys2Proof.Machine.execNop s
  | .init => Sys2Proof.Machine.execInit s
  | .seed v => Sys2Proof.Machine.execSeed v s
  | .foldw w => Sys2Proof.Machine.execFoldw w s
  | .foldt1 b0 => Sys2Proof.Machine.execFoldt1 b0 s
  | .foldt2 b0 b1 => Sys2Proof.Machine.execFoldt2 b0 b1 s
  | .foldt3 b0 b1 b2 => Sys2Proof.Machine.execFoldt3 b0 b1 b2 s
  | .lutrd k => Sys2Proof.Machine.execLutrd k s

end Sys2Proof.Machine
end

