-- ==== Sys2Proof/Machine/Flags.lean ====
section
/-! DEFINITION. The block has no status flags and no condition codes (spec/10_state.md R21). What stands in their
place is the handshake output `cmd_ready`, the only signal of completion. -/

namespace Sys2Proof.Machine

/-- The output `cmd_ready` = NOT `busy` (R21, R23; spec/30_encoding.md R40). -/
def State.cmdReady (s : State) : Bool := !s.busy

end Sys2Proof.Machine
end

