-- ==== Sys2Proof/Machine/Port.lean ====
section
/-! DEFINITION. The command port: what a rising edge of `clk` does (spec/30_encoding.md R40, R41;
spec/60_exceptions.md R91; spec/70_reset_and_hazards.md R100), and the outputs (R104). The open parameter
FOLD_LATENCY is the argument `completes`: whether the command being executed completes at this edge (log 4). -/

namespace Sys2Proof.Machine

/-- The frame `{cmd_op, cmd_data}` the host offers (R41). -/
def Pins.frame (p : Pins) : Frame := mkFrame p.cmdOp p.cmdData

/-- Reset is active when the pin `rst` is at the level of the style's polarity (R8, R40). -/
def ResetStyle.active (style : ResetStyle) (level : Bool) : Bool := level == style.activeHigh

/-- The input ports of R40 as the machine reads them, for any `RESET_STYLE`: only whether reset is active counts, and
a reset between two edges (asynchronous style) is an input of its own before the next edge (R100; log 14). -/
def ResetStyle.pins (style : ResetStyle) (rst cmdValid : Bool) (cmdOp : Byte) (cmdData : Word) : Pins :=
  ⟨style.active rst, cmdValid, cmdOp, cmdData⟩

/-- An edge at which the host neither resets nor offers a command. -/
def Pins.isIdle (p : Pins) : Bool := !p.rst && !p.cmdValid

/-- The input of a host that offers a frame, reset not active. -/
def offer (f : Frame) : Pins := ⟨false, true, frameOp f, frameData f⟩

/-- A meaning's answer, as a claim: in a refused run, what it wrote to `ACC` and `LUT_Q` is no claim (R88; log 7). -/
def settleOutcome (o : Host.Outcome State Fault Refusal) : Host.Outcome State Fault Refusal :=
  match o with
  | .next t => .next t.settle
  | .fault r => .fault r
  | .refused r => .refused r

/-- Accepting a frame (R41): a command runs on the latched frame, and `busy` is 1 from this edge until it completes.
Its writes are made here, where nothing can observe them before `busy` returns to 0 (R32, R104; log 3). A frame that
decodes to a refusal is refused with its reason (R88). -/
def accept (completes : Bool) (f : Frame) (s : State) : Host.Outcome State Fault Refusal :=
  match decode f with
  | .command i => settleOutcome (exec i { s with busy := !completes })
  | .refused r => .refused (.undefinedFrame r)

/-- One rising edge of `clk`. An active reset wins over everything (R91, R100). While `busy` is 1 nothing is accepted:
an offered command stays offered, held by the host until it is accepted (R41, R105; log 2). At an edge with
`cmd_valid` = 0, and when the host drives nothing more, the block accepts nothing (R41, R99). -/
def clockEdge (completes : Bool) (s : State) : Host.Outcome State Fault Refusal :=
  match s.port with
  | [] => .next { s with busy := s.busy && !completes }
  | p :: rest =>
    if p.rst then .next (State.resetEvent { s with port := rest })
    else if s.busy then
      .next { s with busy := !completes, port := if p.cmdValid then p :: rest else rest }
    else if p.cmdValid then accept completes p.frame { s with port := rest }
    else .next { s with port := rest }

/-- A sample of `crc_out` while reset is active (`rst`) or not: `ACC` when `cmd_ready` = 1 and reset is not active,
and otherwise the free value `draw`, a draw under no law (R104; log 5). -/
def State.crcOut (s : State) (rst : Bool) (draw : Word) : Word :=
  if s.cmdReady && !rst then s.acc else draw

/-- A sample of `lut_out`, as crcOut (R104; log 5). -/
def State.lutOut (s : State) (rst : Bool) (draw : Word) : Word :=
  if s.cmdReady && !rst then s.lutQ else draw

/-- The host puts its input for the coming edges after what it drives already (log 1). -/
def State.drive (s : State) (ps : List Pins) : State := { s with port := s.port ++ ps }

/-- The frame is what the host offers at the next edge, and the block is ready to accept it (R41; log 1). -/
def State.offerNext (s : State) (f : Frame) : State := { s with port := offer f :: s.port, busy := false }

end Sys2Proof.Machine
end

