-- ==== Sys2Proof/Machine/Step.lean ====
section
/-! DEFINITION. The command-level step (spec/10_state.md R23, spec/30_encoding.md R41): each accepted command is one
atomic step, that is, the clock edge at which the command also completes, so that `busy` is 0 between steps. -/

namespace Sys2Proof.Machine

/-- One step: the next input of the host is taken, and a command accepted at it runs to its end. -/
def step (s : State) : Host.Outcome State Fault Refusal := clockEdge true s

/-- The state in which the next step accepts exactly the frame of a row of the opcode table (log 1, log 16). -/
def State.withFetchWord (s : State) (nbits w : Nat) : State := s.offerNext (tableFrame nbits w)

end Sys2Proof.Machine
end

