-- ==== Sys2Proof/Machine/Digest.lean ====
section
/-! DEFINITION. The whole-sequence computation (spec/43_sequence.md R79): the digest of a byte sequence, as the spec
writes it, by index. -/

namespace Sys2Proof.Machine

/-- `bytes[k]`; every use below is inside the list. -/
def byteAt (bytes : List Byte) (k : Nat) : Byte := bytes.getD k 0#8

/-- Full word `j` of a byte sequence (R27, R79). -/
def wordAt (bytes : List Byte) (j : Nat) : Word :=
  leWord (byteAt bytes (4 * j)) (byteAt bytes (4 * j + 1)) (byteAt bytes (4 * j + 2)) (byteAt bytes (4 * j + 3))

/-- `compute_from(seed, bytes)`: the full words in order, then the tail if there is one (R79). -/
def computeFrom (t : Lut) (seed : Word) (bytes : List Byte) : Word :=
  let n := bytes.length
  let c := (List.range (n / 4)).foldl (fun c j => update t c (wordAt bytes j)) seed
  match n % 4 with
  | 1 => update t c (pack1 (byteAt bytes (n - 1)))
  | 2 => update t c (pack2 (byteAt bytes (n - 2)) (byteAt bytes (n - 1)))
  | 3 => update t c (pack3 (byteAt bytes (n - 3)) (byteAt bytes (n - 2)) (byteAt bytes (n - 1)))
  | _ => c

/-- `compute(bytes)`: from the start value `0xFFFFFFFF` (R79). -/
def compute (t : Lut) (bytes : List Byte) : Word := computeFrom t Config.initValue bytes

end Sys2Proof.Machine
end

