-- ==== Sys2Proof/Machine/Asm.lean ====
section
/-! DEFINITION. The assembler (spec/30_encoding.md R50): command text to commands, the pseudo-commands of R51, and the
host's input that offers a list of commands (spec/70_reset_and_hazards.md R103, R107). -/

namespace Sys2Proof.Machine

/-- `crc.bytes b_0, …, b_{n-1}`: one fold per full word in order, then one tail fold if there is a tail (R51). -/
def expandBytes (bytes : List Byte) : List Instr :=
  let n := bytes.length
  let words := (List.range (n / 4)).map (fun j => Instr.foldw (wordAt bytes j))
  match n % 4 with
  | 1 => words ++ [.foldt1 (byteAt bytes (n - 1))]
  | 2 => words ++ [.foldt2 (byteAt bytes (n - 2)) (byteAt bytes (n - 1))]
  | 3 => words ++ [.foldt3 (byteAt bytes (n - 3)) (byteAt bytes (n - 2)) (byteAt bytes (n - 1))]
  | _ => words

/-- `crc.compute b_0, …`: `crc.init`, then `crc.bytes` (R51). -/
def expandCompute (bytes : List Byte) : List Instr := .init :: expandBytes bytes

/-- `crc.resume v, b_0, …`: `crc.seed v`, then `crc.bytes` (R51). -/
def expandResume (v : Word) (bytes : List Byte) : List Instr := .seed v :: expandBytes bytes

/-- The input of a host that offers the commands one after another (R109). -/
def script (is : List Instr) : List Pins := is.map (fun i => offer (encode i))

/-- The commands of a well-formed line; no other line is given to it. -/
def expandLine (op : AsmOp) (operands : List Nat) : List Instr :=
  let word := fun (v : Nat) => BitVec.ofNat 32 v
  let byte := fun (v : Nat) => BitVec.ofNat 8 v
  match op, operands with
  | .nop, [] => [.nop]
  | .init, [] => [.init]
  | .seed, [s] => [.seed (word s)]
  | .foldw, [w] => [.foldw (word w)]
  | .foldt1, [b0] => [.foldt1 (byte b0)]
  | .foldt2, [b0, b1] => [.foldt2 (byte b0) (byte b1)]
  | .foldt3, [b0, b1, b2] => [.foldt3 (byte b0) (byte b1) (byte b2)]
  | .lutrd, [i] => [.lutrd (byte i)]
  | .foldb4, [b0, b1, b2, b3] => [.foldw (leWord (byte b0) (byte b1) (byte b2) (byte b3))]
  | .bytes, bs => expandBytes (bs.map byte)
  | .compute, bs => expandCompute (bs.map byte)
  | .resume, v :: bs => expandResume (word v) (bs.map byte)
  | _, _ => []

/-- One line to commands: a wrong number of operands, or an operand that does not fit its field, is an assembly
error, not a truncation (R50). -/
def assembleLine (line : SourceLine) : Except AsmError (List Instr) :=
  if !arityOk line.op line.operands.length then .error .wrongOperandCount
  else if !operandsFit line then .error .operandTooWide
  else .ok (expandLine line.op line.operands)

/-- The mnemonics of R50 and R51 as text: lower case, with the prefix `crc.`. -/
def asmOps : List (List Char × AsmOp) :=
  [("crc.nop".toList, .nop), ("crc.init".toList, .init), ("crc.seed".toList, .seed), ("crc.foldw".toList, .foldw),
   ("crc.foldt1".toList, .foldt1), ("crc.foldt2".toList, .foldt2), ("crc.foldt3".toList, .foldt3),
   ("crc.lutrd".toList, .lutrd), ("crc.foldb4".toList, .foldb4), ("crc.bytes".toList, .bytes),
   ("crc.compute".toList, .compute), ("crc.resume".toList, .resume)]

/-- The value of a digit of either base; letters of either case (log 13). -/
def digitValue (c : Char) : Option Nat :=
  if '0' ≤ c ∧ c ≤ '9' then some (c.toNat - '0'.toNat)
  else if 'a' ≤ c ∧ c ≤ 'f' then some (c.toNat - 'a'.toNat + 10)
  else if 'A' ≤ c ∧ c ≤ 'F' then some (c.toNat - 'A'.toNat + 10)
  else none

/-- The number written by digits of a base, after a value already read; none at a character that is no digit of it. -/
def readDigits (base : Nat) (value : Nat) : List Char → Option Nat
  | [] => some value
  | c :: cs =>
    match digitValue c with
    | some d => if d < base then readDigits base (value * base + d) cs else none
    | none => none

/-- "A number is hexadecimal with `0x`, or decimal" (R50). -/
def readNumber (text : List Char) : Option Nat :=
  match text with
  | [] => none
  | '0' :: 'x' :: [] => none
  | '0' :: 'x' :: digits => readDigits 16 0 digits
  | digits => readDigits 10 0 digits

/-- Blanks inside a line (log 13). -/
def isBlank (c : Char) : Bool := c == ' ' || c == '\t' || c == '\r'

/-- A text without the blanks at its ends. -/
def trim (text : List Char) : List Char := ((text.dropWhile isBlank).reverse.dropWhile isBlank).reverse

/-- The pieces of a text between the separators. -/
def splitAtChar (sep : Char) : List Char → List (List Char)
  | [] => [[]]
  | c :: cs =>
    match splitAtChar sep cs with
    | [] => [[c]]
    | piece :: pieces => if c == sep then [] :: piece :: pieces else (c :: piece) :: pieces

/-- The numbers of an operand list, or none where a piece is no number. -/
def readNumbers : List (List Char) → Option (List Nat)
  | [] => some []
  | piece :: pieces =>
    match readNumber (trim piece), readNumbers pieces with
    | some v, some vs => some (v :: vs)
    | _, _ => none

/-- The operands of a line, separated by commas (R50); a blank text is no operand. -/
def readOperands (text : List Char) : Option (List Nat) :=
  if (trim text).isEmpty then some [] else readNumbers (splitAtChar ',' text)

/-- One line of text to commands (R50): the comment from `;` on is left out, and a blank line gives no command. -/
def assembleTextLine (text : List Char) : Except AsmError (List Instr) :=
  let body := trim (text.takeWhile (fun c => c != ';'))
  if body.isEmpty then .ok []
  else
    match asmOps.lookup (body.takeWhile (fun c => !isBlank c)) with
    | none => .error .unknownMnemonic
    | some op =>
      match readOperands (body.dropWhile (fun c => !isBlank c)) with
      | none => .error .badNumber
      | some operands => assembleLine ⟨op, operands⟩

/-- The lines of a text to commands, in order; the first line with an error makes the text an error. -/
def assembleLines : List (List Char) → Except AsmError (List Instr)
  | [] => .ok []
  | line :: lines =>
    match assembleTextLine line with
    | .error e => .error e
    | .ok is =>
      match assembleLines lines with
      | .error e => .error e
      | .ok js => .ok (is ++ js)

/-- Command text to commands: one command per line (R50). -/
def assembleText (text : List Char) : Except AsmError (List Instr) := assembleLines (splitAtChar '\n' text)

end Sys2Proof.Machine
end

