-- ==== Sys2Proof/Machine/Run.lean ====
section
/-! DEFINITION. Runs (spec/70_reset_and_hazards.md R110): the commands accepted and the resets among them, going on
past a refused frame with the refused mark set (spec/60_exceptions.md R88, R89), and the result of a run. -/

namespace Sys2Proof.Machine

/-- The state after a refused frame: the frame is taken from the port, and the refusal is taken (R20, R88). -/
def afterRefusal (completes : Bool) (s : State) : State :=
  State.takeRefusal { s with port := s.port.tail, busy := !completes }

/-- The state a run is in after one edge, refused frames included. -/
def advanceAt (completes : Bool) (s : State) : State :=
  match clockEdge completes s with
  | .next t => t
  | .fault r => nomatch r
  | .refused _ => afterRefusal completes s

/-- The state a run is in after one command-level step, refused frames included. -/
def advance (s : State) : State := advanceAt true s

/-- `n` command-level steps of a run. -/
def run : Nat → State → State
  | 0, s => s
  | n + 1, s => run n (advance s)

/-- The run of the clocked block, one choice per edge: whether the command in execution completes at it. The choices
stand for every `FOLD_LATENCY` (R111; log 4). -/
def clockedRun : List Bool → State → State
  | [], s => s
  | c :: cs, s => clockedRun cs (advanceAt c s)

/-- The commands one after another, by their meanings alone: each sees what the one before it wrote
(spec/20_memory.md R36). -/
def execAll : List Instr → State → Host.Outcome State Fault Refusal
  | [], s => .next s
  | i :: is, s =>
    match exec i s with
    | .next t => execAll is t
    | .fault r => .fault r
    | .refused r => .refused r

/-- The end of a run is reached when the host has offered its last command and `cmd_ready` = 1 (R110; log 17). -/
def State.atEnd (s : State) : Bool := s.cmdReady && s.port.all Pins.isIdle

/-- What a run leaves: `crc_out` and `lut_out` at its end (R110). -/
structure RunResult where
  crc : Word
  lut : Word
  deriving DecidableEq, Repr

/-- The result at the end of a run; "A run with the refused mark set has no result" (R110). -/
def State.result (s : State) : Option RunResult :=
  if s.atEnd && !s.refused then some ⟨s.acc, s.lutQ⟩ else none

end Sys2Proof.Machine
end

