-- ==== Sys2Proof/Machine/Platform.lean ====
section
/-! DEFINITION. Several instances side by side (spec/60_exceptions.md R97; log 15): each has its own state and its own
command port, and the only thing instances may share is the LUT, which nothing writes. -/

namespace Sys2Proof.Machine

/-- Independent instances, by position. Their number is the parameter `N_INSTANCES`, whose range is "≥ 1"
(spec/00_scope.md R8): the field `inRange` holds it, so a platform without an instance cannot be written. -/
@[ext] structure Platform where
  blocks  : List State
  inRange : 1 ≤ blocks.length
  deriving DecidableEq, Repr

/-- `N_INSTANCES` of the platform (R8, R97). -/
def Platform.nInstances (m : Platform) : Nat := m.blocks.length

/-- The platform of `n` instances right after each was reset, for the argument `N_INSTANCES` = `n` in its range. -/
def Platform.reset (n : Nat) (h : 1 ≤ n) : Platform :=
  ⟨List.replicate n State.reset, by rw [List.length_replicate]; exact h⟩

/-- One step of instance `k`; no other instance is touched, and a position that holds no instance does nothing. -/
def Platform.advanceBlock (k : Nat) (m : Platform) : Platform :=
  ⟨m.blocks.modify k advance, by rw [List.length_modify]; exact m.inRange⟩

/-- Every instance reads the same table: the instances may share one physical LUT (R97). -/
def Platform.sharesLut (t : Lut) (m : Platform) : Prop := ∀ s ∈ m.blocks, s.lut = t

end Sys2Proof.Machine
end

