-- ==== Sys2Proof/Safety.lean ====
section
/-! DEFINITION. What counts as a safe run, in the terms the statements use: the refused mark is not set
(spec/60_exceptions.md R89), the host is conforming (spec/70_reset_and_hazards.md R108), the table is one the parameter
CRC_TABLE allows (spec/00_scope.md R8), and the block is idle between steps (spec/10_state.md R23). -/

namespace Sys2Proof.Machine

/-- The premise every claim about the block takes: "refused mark false" (R89). -/
abbrev State.Good (s : State) : Prop := s.refused = false

/-- What a table must satisfy to be a `CRC_TABLE` (R8): entries `0x00` and `0x01` (spec/40_lut.md R54, R55). -/
abbrev LutOk (t : Lut) : Prop := lutRead t 0x00#8 = 0x00000000#32 ∧ lutRead t 0x01#8 = 0x04C11DB7#32

/-- The frame a host may send: one that decodes to a command (R108). -/
def isCommand (d : Decoded) : Bool :=
  match d with
  | .command _ => true
  | .refused _ => false

/-- An input of a conforming host: a reset, nothing, or an offered frame that decodes to a command (R108, R109). -/
def Pins.conforming (p : Pins) : Bool := p.rst || !p.cmdValid || isCommand (decode p.frame)

/-- Everything the host is going to drive is conforming (R108). -/
abbrev State.Conforming (s : State) : Prop := s.port.all Pins.conforming = true

/-- The invariant of the command-level machine: the table is a legal `CRC_TABLE`, and the block is idle (R23). -/
abbrev State.Inv (s : State) : Prop := LutOk s.lut ∧ s.busy = false

/-- The invariant of a safe run: not refused, and the host conforming. -/
abbrev State.Safe (s : State) : Prop := s.Good ∧ s.Conforming

/-- The input at the next edge is an offered frame and reset is not active, with `rest` to follow (R41). -/
abbrev State.Offers (s : State) (f : Frame) (rest : List Pins) : Prop :=
  ∃ p : Pins, s.port = p :: rest ∧ p.rst = false ∧ p.cmdValid = true ∧ p.frame = f

end Sys2Proof.Machine
end

