-- ==== Sys2Proof/Certificates/Slice0/Obligations.lean ====
section
/-! DEFINITION. The statements for the provers, from the numbered rules of spec/. Every statement about the block takes
"refused mark false" (State.Good) as a premise, as spec/60_exceptions.md R89 asks, unless it is about the mark itself,
about what no run can change (the LUT, the command position, the absence of faults), or compares two descriptions of one
run. A clause that rests on the default table (`Config.crcTable`) is the model's
assumption 8: the spec marks that table as general knowledge (spec/40_lut.md R57, R58). -/

open Sys2Proof Sys2Proof.Machine

/-! ### Encoding -/

/-- Decoding the frame of a command gives the command back, every operand at every value (30_encoding R44, R48). -/
def Obligations.DecodeEncodeRoundTrip : Prop := ∀ i : Instr, decode (encode i) = .command i

/-- Where a frame decodes to a command it is that command's frame: each frame has one meaning (R44, R48). -/
def Obligations.CommandFramesAreExactlyEncodings : Prop :=
  ∀ (f : Frame) (i : Instr), decode f = .command i ↔ f = encode i

/-- R44: the eight bit patterns, the match and mask table, and that no frame matches two rows. -/
def Obligations.BitPatternsAndRows : Prop :=
  (decode (0x00#8 ++ 0#32 : BitVec 40) = .command .nop ∧
   decode (0x01#8 ++ 0#32 : BitVec 40) = .command .init ∧
   (∀ s : Word, decode (0x02#8 ++ s : BitVec 40) = .command (.seed s)) ∧
   (∀ w : Word, decode (0x03#8 ++ w : BitVec 40) = .command (.foldw w)) ∧
   (∀ a : Byte, decode (0x04#8 ++ (0#24 ++ a) : BitVec 40) = .command (.foldt1 a)) ∧
   (∀ a b : Byte, decode (0x05#8 ++ (0#16 ++ (b ++ a)) : BitVec 40) = .command (.foldt2 a b)) ∧
   (∀ a b c : Byte, decode (0x06#8 ++ (0#8 ++ (c ++ (b ++ a))) : BitVec 40) = .command (.foldt3 a b c)) ∧
   (∀ i : Byte, decode (0x07#8 ++ (0#24 ++ i) : BitVec 40) = .command (.lutrd i))) ∧
  (∀ (f : Frame) (i : Instr), decode f = .command i → rowMatches (opcodeRow i) f = true) ∧
  (∀ (f : Frame) (r : OpcodeRow), r ∈ opcodeRows → rowMatches r f = true →
    ∃ i, decode f = .command i ∧ opcodeRow i = r) ∧
  (∀ (f : Frame) (r r' : OpcodeRow), r ∈ opcodeRows → r' ∈ opcodeRows → rowMatches r f = true →
    rowMatches r' f = true → r = r')

/-- R45: operands are taken from `data` unchanged, each from its own lane. -/
def Obligations.OperandsTakenUnchanged : Prop :=
  (∀ (f : Frame) (s : Word), decode f = .command (.seed s) → s = f.extractLsb' 0 32) ∧
  (∀ (f : Frame) (w : Word), decode f = .command (.foldw w) → w = f.extractLsb' 0 32) ∧
  (∀ (f : Frame) (b0 : Byte), decode f = .command (.foldt1 b0) → b0 = f.extractLsb' 0 8) ∧
  (∀ (f : Frame) (b0 b1 : Byte), decode f = .command (.foldt2 b0 b1) →
    b0 = f.extractLsb' 0 8 ∧ b1 = f.extractLsb' 8 8) ∧
  (∀ (f : Frame) (b0 b1 b2 : Byte), decode f = .command (.foldt3 b0 b1 b2) →
    b0 = f.extractLsb' 0 8 ∧ b1 = f.extractLsb' 8 8 ∧ b2 = f.extractLsb' 16 8) ∧
  (∀ (f : Frame) (i : Byte), decode f = .command (.lutrd i) → i = f.extractLsb' 0 8) ∧
  (∀ i : Byte, ∃ f : Frame, decode f = .command (.lutrd i))

/-- R46, R47, with the must-be-zero column of R43 (mustBeZero): which frames are refused, and for which reason. -/
def Obligations.DecoderRefusesExactlyReserved : Prop :=
  (∀ f : Frame, decode f = .refused .reservedOpcode ↔ 0x08 ≤ (f.extractLsb' 32 8).toNat) ∧
  (∀ f : Frame, decode f = .refused .nonzeroReservedBits ↔
    ∃ mask, mustBeZero (f.extractLsb' 32 8) = some mask ∧ f.extractLsb' 0 32 &&& mask ≠ 0#32) ∧
  (∀ f : Frame, frameWellFormed f = true ↔ ∃ i, decode f = .command i) ∧
  decode 0x0400000100#40 = .refused .nonzeroReservedBits ∧
  decode 0x0400000001#40 = .command (.foldt1 0x01#8)

/-- A few frames written out from the spec's encodings (95_test_vectors 2.5) decode as the spec says. -/
def Obligations.SampleFramesDecode : Prop :=
  decode 0x0000000000#40 = .command .nop ∧ decode 0x0100000000#40 = .command .init ∧
  decode 0x021DABE74F#40 = .command (.seed 0x1DABE74F#32) ∧
  decode 0x03FFFFFFFF#40 = .command (.foldw 0xFFFFFFFF#32) ∧
  decode 0x0400000005#40 = .command (.foldt1 0x05#8) ∧
  decode 0x0500000605#40 = .command (.foldt2 0x05#8 0x06#8) ∧
  decode 0x0600070605#40 = .command (.foldt3 0x05#8 0x06#8 0x07#8) ∧
  decode 0x07000000FF#40 = .command (.lutrd 0xFF#8) ∧
  decode 0x0800000000#40 = .refused .reservedOpcode ∧ decode 0x0180000000#40 = .refused .nonzeroReservedBits

/-! ### The commands: each statement gives the whole next state, so it is the result, the frame and the completion -/

/-- R78: NOP advances the command position and writes nothing; the all-zero frame is NOP. -/
def Obligations.NopOnlyAdvances : Prop :=
  (∀ s : State, s.Good → exec .nop s = .next { s with cmdIdx := s.cmdIdx + 1 }) ∧
  decode 0x0000000000#40 = .command .nop ∧
  (∀ d : Word, d ≠ 0#32 → decode (0x00#8 ++ d : BitVec 40) = .refused .nonzeroReservedBits)

/-- R76: INIT sets `ACC = 0xFFFFFFFF` from any state and is idempotent; after reset it changes no register. -/
def Obligations.InitSetsStartValue : Prop :=
  (∀ s : State, s.Good → exec .init s = .next { s with acc := 0xFFFFFFFF#32, cmdIdx := s.cmdIdx + 1 }) ∧
  (∀ s t : State, s.Good → exec .init s = .next t → exec .init t = .next { t with cmdIdx := t.cmdIdx + 1 }) ∧
  exec .init State.reset = .next { State.reset with cmdIdx := State.reset.cmdIdx + 1 } ∧
  decode 0x0100000000#40 = .command .init ∧
  (∀ d : Word, d ≠ 0#32 → decode (0x01#8 ++ d : BitVec 40) = .refused .nonzeroReservedBits)

/-- R77: SEED loads any 32-bit value; `SEED 0xFFFFFFFF` is the same as INIT. The clause on a FOLDW of 0 after SEED 0
holds for every table with `table[0] = 0`. -/
def Obligations.SeedLoadsAccumulator : Prop :=
  (∀ (v : Word) (s : State), s.Good → exec (.seed v) s = .next { s with acc := v, cmdIdx := s.cmdIdx + 1 }) ∧
  (∀ s : State, s.Good → exec (.seed 0xFFFFFFFF#32) s = exec .init s) ∧
  (∀ s : State, s.Good → lutRead s.lut 0x00#8 = 0#32 →
    execAll [.seed 0#32, .foldw 0#32] s = .next { s with acc := 0#32, cmdIdx := s.cmdIdx + 2 }) ∧
  (∀ v : Word, decode (0x02#8 ++ v : BitVec 40) = .command (.seed v)) ∧
  decode 0x021DABE74F#40 = .command (.seed 0x1DABE74F#32)

/-- R66: FOLDW folds one word; every frame with `op` = `0x03` is a FOLDW; `w = ACC` gives 0 for every legal table
(LutOk); a zero word is not a no-op; the digest of four bytes is one fold. The last three clauses rest on the default
table (log 8). -/
def Obligations.FoldwFoldsWord : Prop :=
  (∀ (w : Word) (s : State), s.Good →
    exec (.foldw w) s = .next { s with acc := update s.lut s.acc w, cmdIdx := s.cmdIdx + 1 }) ∧
  (∀ w : Word, decode (0x03#8 ++ w : BitVec 40) = .command (.foldw w)) ∧
  (∀ s : State, s.Good → LutOk s.lut →
    exec (.foldw s.acc) s = .next { s with acc := 0#32, cmdIdx := s.cmdIdx + 1 }) ∧
  (∀ (t : Lut) (b0 b1 b2 b3 : Byte),
    compute t [b0, b1, b2, b3] = update t 0xFFFFFFFF#32 (leWord b0 b1 b2 b3)) ∧
  (∀ s : State, s.Good → s.lut = Config.crcTable → s.acc = 0xFFFFFFFF#32 →
    exec (.foldw 0#32) s = .next { s with acc := 0xC704DD7B#32, cmdIdx := s.cmdIdx + 1 }) ∧
  (∀ s : State, s.Good → s.lut = Config.crcTable → s.acc = 0xFFFFFFFF#32 →
    exec (.foldw 0x04030201#32) s = .next { s with acc := 0x1DABE74F#32, cmdIdx := s.cmdIdx + 1 }) ∧
  (0xFFFFFFFF#32 ^^^ 0x04030201#32 = 0xFBFCFDFE#32 ∧
   tableStep Config.crcTable 0xFBFCFDFE#32 = 0x5E0EC868#32 ∧
   tableStep Config.crcTable 0x5E0EC868#32 = 0x4AD1630D#32 ∧
   tableStep Config.crcTable 0x4AD1630D#32 = 0xCA6FABA1#32 ∧
   tableStep Config.crcTable 0xCA6FABA1#32 = 0x1DABE74F#32)

/-- R73: FOLDT1 folds `b0 << 24`; a zero byte is the fold of the word 0. The last clause, the rule's example, rests on
the default table (log 8). -/
def Obligations.Foldt1FoldsPackedByte : Prop :=
  (∀ (b0 : Byte) (s : State), s.Good →
    exec (.foldt1 b0) s =
      .next { s with acc := update s.lut s.acc (b0.setWidth 32 <<< 24), cmdIdx := s.cmdIdx + 1 }) ∧
  (∀ b0 : Byte, decode (0x04#8 ++ (0#24 ++ b0) : BitVec 40) = .command (.foldt1 b0)) ∧
  (∀ d : Word, d.extractLsb' 8 24 ≠ 0#24 → decode (0x04#8 ++ d : BitVec 40) = .refused .nonzeroReservedBits) ∧
  (∀ s : State, s.Good → exec (.foldt1 0x00#8) s = exec (.foldw 0#32) s) ∧
  pack1 0xFF#8 = 0xFF000000#32 ∧ pack1 0x05#8 = 0x05000000#32 ∧ decode 0x0400000005#40 = .command (.foldt1 0x05#8) ∧
  (∀ s : State, s.Good → s.lut = Config.crcTable → s.acc = 0xFFFFFFFF#32 →
    exec (.foldt1 0x05#8) s = .next { s with acc := 0x679C0BC9#32, cmdIdx := s.cmdIdx + 1 })

/-- R74: FOLDT2 folds the two bytes read little-endian, shifted into the upper half-word (90_conflicts C1:
`0x06050000`). The last two clauses, the rule's example and its table steps, rest on the default table (log 8). -/
def Obligations.Foldt2FoldsPackedBytes : Prop :=
  (∀ (b0 b1 : Byte) (s : State), s.Good →
    exec (.foldt2 b0 b1) s =
      .next { s with
        acc := update s.lut s.acc ((b0.setWidth 32 ||| (b1.setWidth 32 <<< 8)) <<< 16), cmdIdx := s.cmdIdx + 1 }) ∧
  (∀ b0 b1 : Byte, decode (0x05#8 ++ (0#16 ++ (b1 ++ b0)) : BitVec 40) = .command (.foldt2 b0 b1)) ∧
  (∀ d : Word, d.extractLsb' 16 16 ≠ 0#16 → decode (0x05#8 ++ d : BitVec 40) = .refused .nonzeroReservedBits) ∧
  (∀ b : Byte, pack2 0x00#8 b = pack1 b) ∧ pack2 0x00#8 0x00#8 = 0#32 ∧
  pack2 0x05#8 0x06#8 = 0x06050000#32 ∧ decode 0x0500000605#40 = .command (.foldt2 0x05#8 0x06#8) ∧
  (∀ s : State, s.Good → s.lut = Config.crcTable → s.acc = 0x1DABE74F#32 →
    exec (.foldt2 0x05#8 0x06#8) s = .next { s with acc := 0x6BB36ACF#32, cmdIdx := s.cmdIdx + 1 }) ∧
  (0x1DABE74F#32 ^^^ 0x06050000#32 = 0x1BAEE74F#32 ∧
   tableStep Config.crcTable 0x1BAEE74F#32 = 0xC9BD5F11#32 ∧
   tableStep Config.crcTable 0xC9BD5F11#32 = 0xC21C7196#32 ∧
   tableStep Config.crcTable 0xC21C7196#32 = 0x48793DF7#32 ∧
   tableStep Config.crcTable 0x48793DF7#32 = 0x6BB36ACF#32)

/-- R75: FOLDT3 folds the three bytes packed toward the most significant end. The last three clauses, the rule's
corner case and example, rest on the default table (log 8). -/
def Obligations.Foldt3FoldsPackedBytes : Prop :=
  (∀ (b0 b1 b2 : Byte) (s : State), s.Good →
    exec (.foldt3 b0 b1 b2) s =
      .next { s with
        acc := update s.lut s.acc
          (((b0.setWidth 32 ||| (b1.setWidth 32 <<< 8)) <<< 8) ||| (b2.setWidth 32 <<< 24)),
        cmdIdx := s.cmdIdx + 1 }) ∧
  (∀ b0 b1 b2 : Byte, decode (0x06#8 ++ (0#8 ++ (b2 ++ (b1 ++ b0))) : BitVec 40) = .command (.foldt3 b0 b1 b2)) ∧
  (∀ d : Word, d.extractLsb' 24 8 ≠ 0#8 → decode (0x06#8 ++ d : BitVec 40) = .refused .nonzeroReservedBits) ∧
  (∀ a b : Byte, pack3 0x00#8 a b = pack2 a b) ∧ pack3 0xFF#8 0xFF#8 0xFF#8 = 0xFFFFFF00#32 ∧
  pack3 0x05#8 0x06#8 0x07#8 = 0x07060500#32 ∧ decode 0x0600070605#40 = .command (.foldt3 0x05#8 0x06#8 0x07#8) ∧
  (update Config.crcTable 0#32 0x000000FF#32 = lutRead Config.crcTable 0xFF#8 ∧
   lutRead Config.crcTable 0xFF#8 = 0xB1F740B4#32) ∧
  (∀ s : State, s.Good → s.lut = Config.crcTable → s.acc = 0xFFFFFFFF#32 →
    exec (.foldt3 0xFF#8 0xFF#8 0xFF#8) s = .next { s with acc := 0xB1F740B4#32, cmdIdx := s.cmdIdx + 1 }) ∧
  (∀ s : State, s.Good → s.lut = Config.crcTable → s.acc = 0xFFFFFFFF#32 →
    exec (.foldt3 0x05#8 0x06#8 0x07#8) s = .next { s with acc := 0x48682877#32, cmdIdx := s.cmdIdx + 1 })

/-- R60: LUTRD reads one table entry into `LUT_Q`; two in a row leave the second result. The clause on `i = 0xFF`
rests on the default table (log 8). -/
def Obligations.LutrdReadsTableEntry : Prop :=
  (∀ (i : Byte) (s : State), s.Good →
    exec (.lutrd i) s = .next { s with lutQ := s.lut[i.toNat]'i.isLt, cmdIdx := s.cmdIdx + 1 }) ∧
  (∀ i : Byte, decode (0x07#8 ++ (0#24 ++ i) : BitVec 40) = .command (.lutrd i)) ∧
  (∀ d : Word, d.extractLsb' 8 24 ≠ 0#24 → decode (0x07#8 ++ d : BitVec 40) = .refused .nonzeroReservedBits) ∧
  (∀ (i j : Byte) (s : State), s.Good →
    execAll [.lutrd i, .lutrd j] s = .next { s with lutQ := s.lut[j.toNat]'j.isLt, cmdIdx := s.cmdIdx + 2 }) ∧
  (∀ s : State, s.Good → LutOk s.lut →
    exec (.lutrd 0x00#8) s = .next { s with lutQ := 0#32, cmdIdx := s.cmdIdx + 1 } ∧
    exec (.lutrd 0x01#8) s = .next { s with lutQ := 0x04C11DB7#32, cmdIdx := s.cmdIdx + 1 }) ∧
  (∀ s : State, s.Good → s.lut = Config.crcTable →
    exec (.lutrd 0xFF#8) s = .next { s with lutQ := 0xB1F740B4#32, cmdIdx := s.cmdIdx + 1 })

/-- R86: no exception: every command completes on all operands in every state, and no edge faults. -/
def Obligations.NoCommandFaults : Prop :=
  (∀ (i : Instr) (s : State), ∃ t, exec i s = .next t) ∧
  (∀ (completes : Bool) (s : State) (r : Fault), clockEdge completes s ≠ .fault r)

/-- The "written by" column of R15, with R17 to R20: what a command leaves unchanged. -/
def Obligations.CommandsWriteOnlyTheirRegister : Prop :=
  ∀ (i : Instr) (s t : State), s.Good → exec i s = .next t →
    t.cmdIdx = s.cmdIdx + 1 ∧ t.lut = s.lut ∧ t.busy = s.busy ∧ t.refused = s.refused ∧ t.port = s.port ∧
    t.draws = s.draws ∧
    ((∀ k, i ≠ .lutrd k) → t.lutQ = s.lutQ) ∧
    (i = .nop ∨ (∃ k, i = .lutrd k) → t.acc = s.acc)

/-- R17: a fold reads `ACC`, its word and the LUT, and no command's result depends on `LUT_Q`, the command position
or the free values taken. -/
def Obligations.NoCommandReadsLutQ : Prop :=
  ∀ (i : Instr) (s s' t t' : State), s.Good → s'.Good → s.acc = s'.acc → s.lut = s'.lut →
    exec i s = .next t → exec i s' = .next t' →
    t.acc = t'.acc ∧ ((∃ k, i = .lutrd k) → t.lutQ = t'.lutQ)

/-- R33: LUTRD, INIT, SEED and NOP are idempotent: a second one in a row changes the command position only. -/
def Obligations.IdempotentCommands : Prop :=
  ∀ (i : Instr) (s t : State), s.Good →
    (i = .nop ∨ i = .init ∨ (∃ v, i = .seed v) ∨ ∃ k, i = .lutrd k) → exec i s = .next t →
    exec i t = .next { t with cmdIdx := t.cmdIdx + 1 }

/-! ### The port, reset and refusal -/

/-- R41: at an edge with `cmd_valid` = 1 and `cmd_ready` = 1 the offered frame is accepted, and the command it decodes
to runs; at the command level (step) it also completes (R23, R32), so the step is exec of the decoded command after the
frame is taken from the port. The second clause is the model's choice where the command does not complete at this edge
(`completes` = false, log 4): that `ACC` and `LUT_Q` are then already written while `busy` is 1 is log 3 (DESIGN CHOICE),
since R23 allows the writes up to the completing edge, and that the command position has then advanced is log 10. -/
def Obligations.StepRunsDecodedCommand : Prop :=
  ∀ (s : State) (f : Frame) (rest : List Pins) (i : Instr), s.Good → s.cmdReady = true → s.Offers f rest →
    decode f = .command i →
    step s = exec i { s with port := rest } ∧
    ∀ completes, clockEdge completes s = exec i { s with port := rest, busy := !completes }

/-- R88: an accepted frame that decodes to a refusal gives the refusal with its one reason; the mark is set, the
command position advances (R20), and the LUT stays. Nothing is said of `ACC` and `LUT_Q`. That the run goes on and how the
handshake stands is the model's reading (log 6, log 7), and that the position advances at this edge is log 10. -/
def Obligations.ReservedFrameIsRefused : Prop :=
  ∀ (s : State) (f : Frame) (rest : List Pins) (r : RefusalReason) (completes : Bool), s.Good → s.cmdReady = true →
    s.Offers f rest → decode f = .refused r →
    clockEdge completes s = .refused (.undefinedFrame r) ∧
    (advanceAt completes s).refused = true ∧ (advanceAt completes s).cmdIdx = s.cmdIdx + 1 ∧
    (advanceAt completes s).lut = s.lut ∧ (advanceAt completes s).port = rest

/-- R89: the mark is false at the start of a run, set by a refused frame and by nothing else, and never cleared for
the rest of the run, not even by a reset; a run whose mark is set has no result. -/
def Obligations.RefusedMarkIsNeverCleared : Prop :=
  State.reset.refused = false ∧
  (∀ (completes : Bool) (s : State), (advanceAt completes s).refused = true ↔
    s.refused = true ∨ ∃ r, clockEdge completes s = .refused (.undefinedFrame r)) ∧
  (∀ (choices : List Bool) (s : State), s.refused = true →
    (clockedRun choices s).refused = true ∧ (clockedRun choices s).result = none)

/-- R24: the values after reset: at the start of a run, and after a later reset in it, whatever was going on. -/
def Obligations.ResetValues : Prop :=
  (State.reset.acc = 0xFFFFFFFF#32 ∧ State.reset.lutQ = 0#32 ∧ State.reset.busy = false ∧
   State.reset.cmdReady = true ∧ State.reset.cmdIdx = 0 ∧ State.reset.refused = false) ∧
  (∀ (completes : Bool) (s : State) (p : Pins) (rest : List Pins), s.Good → s.port = p :: rest → p.rst = true →
    clockEdge completes s =
      .next { s with acc := 0xFFFFFFFF#32, lutQ := 0#32, busy := false, port := rest }) ∧
  (∀ (completes : Bool) (s : State) (p : Pins) (rest : List Pins), s.port = p :: rest → p.rst = true →
    (advanceAt completes s).lut = s.lut ∧ (advanceAt completes s).busy = false ∧
    (advanceAt completes s).cmdIdx = s.cmdIdx ∧ (advanceAt completes s).refused = s.refused)

/-- R91: reset wins: at an edge where reset is active nothing is accepted, a command in execution is abandoned, and
whatever the host offers, what the state becomes does not depend on it. -/
def Obligations.ResetWinsOverAcceptance : Prop :=
  ∀ (completes : Bool) (s : State) (p : Pins) (rest : List Pins), s.Good → s.port = p :: rest → p.rst = true →
    (∃ t, clockEdge completes s = .next t ∧ t.cmdIdx = s.cmdIdx ∧ t.acc = 0xFFFFFFFF#32 ∧ t.lutQ = 0#32 ∧
      t.busy = false) ∧
    ∀ (q : Pins) (completes' busy' : Bool), q.rst = true →
      clockEdge completes' { s with port := q :: rest, busy := busy' } = clockEdge completes s

/-- R41, R99: an idle block that is offered nothing holds its state, and a host that drives nothing more leaves it. -/
def Obligations.IdleBlockHoldsItsState : Prop :=
  (∀ (completes : Bool) (s : State), s.Good → s.cmdReady = true → s.port = [] → clockEdge completes s = .next s) ∧
  (∀ (completes : Bool) (s : State) (p : Pins) (rest : List Pins), s.Good → s.cmdReady = true →
    s.port = p :: rest → p.rst = false → p.cmdValid = false →
    clockEdge completes s = .next { s with port := rest })

/-- R41 with R105: while `cmd_ready` = 0 nothing is accepted: an offered frame stays offered (the model's host holds
it, log 2). That an edge, the completing one included, changes `busy` and the input only is the model's choice, log 3
(DESIGN CHOICE: the command's writes were made at its accepting edge), since R23 and R41 allow `ACC` and `LUT_Q` to be
written up to the completing edge. -/
def Obligations.BusyBlockAcceptsNothing : Prop :=
  ∀ (completes : Bool) (s : State) (p : Pins) (rest : List Pins), s.Good → s.cmdReady = false →
    s.port = p :: rest → p.rst = false →
    (p.cmdValid = true → clockEdge completes s = .next { s with busy := !completes }) ∧
    (p.cmdValid = false → clockEdge completes s = .next { s with busy := !completes, port := rest })

/-- R104: when `cmd_ready` = 1 and reset is not active the outputs are `ACC` and `LUT_Q`. The second clause is log 5
(DESIGN CHOICE): a sample taken otherwise is the draw, any value at all. R104 asks for a draw while busy; for an active
reset it states no value and no draw, and the draw there is the model's choice. -/
def Obligations.OutputsValidWhenReady : Prop :=
  (∀ (s : State) (draw : Word), s.Good → s.cmdReady = true →
    s.crcOut false draw = s.acc ∧ s.lutOut false draw = s.lutQ) ∧
  (∀ (s : State) (rst : Bool) (v : Word), s.Good → s.cmdReady = false ∨ rst = true →
    (∃ draw, s.crcOut rst draw = v) ∧ ∃ draw, s.lutOut rst draw = v)

/-- R36, R106: commands offered one after another run in that order, each on what the one before it left. -/
def Obligations.ScriptRunsCommandsInOrder : Prop :=
  ∀ (is : List Instr) (rest : List Pins) (s : State), s.Good → s.cmdReady = true → s.port = script is ++ rest →
    Host.Core.run core is.length s = execAll is { s with port := rest }

/-- R38, R41: a command accepted at an edge completes at the edge chosen for it, any number of edges later; until then
`cmd_ready` is 0, and from then on the outputs show what the command wrote. Which edge completes it is the argument that
stands for the open latency (log 4), and the command position has advanced at the accepting edge (log 10). -/
def Obligations.AcceptedCommandCompletes : Prop :=
  ∀ (k : Nat) (s t : State) (f : Frame) (rest : List Pins) (i : Instr), s.Good → s.cmdReady = true →
    s.Offers f rest → (∀ p ∈ rest, p.rst = false) → decode f = .command i → exec i s = .next t →
    (∀ j, 1 ≤ j → j ≤ k → (clockedRun (List.replicate j false) s).cmdReady = false) ∧
    ∀ draw, (clockedRun (List.replicate k false ++ [true]) s).cmdReady = true ∧
      (clockedRun (List.replicate k false ++ [true]) s).crcOut false draw = t.acc ∧
      (clockedRun (List.replicate k false ++ [true]) s).lutOut false draw = t.lutQ ∧
      (clockedRun (List.replicate k false ++ [true]) s).cmdIdx = s.cmdIdx + 1

/-- Latency is not observable (R23, R82, R111): whatever the choices of when commands complete (log 4), the clocked block,
but for `busy`, is in a state of the command-level run; and where every command completes at its own edge it is that run.
That the registers while busy already equal those of a command-level state is the model's choice, log 3 (DESIGN CHOICE:
the writes are made at the accepting edge); the rules say it only of the states in which `cmd_ready` = 1. -/
def Obligations.ClockedRunRefinesCommandRun : Prop :=
  (∀ (choices : List Bool) (s : State), ∃ n, n ≤ choices.length ∧
    { clockedRun choices s with busy := false } = run n { s with busy := false }) ∧
  (∀ (n : Nat) (s : State), clockedRun (List.replicate n true) s = run n s)

/-- R20: the command position is 0 at the start of a run and advances by exactly one with every accepted command,
refused ones included, and with nothing else. That it advances at the edge that accepts the command, so that a command
which a reset abandons counts too, is log 10 (DEDUCED from R20). -/
def Obligations.CommandPositionCountsAcceptances : Prop :=
  State.reset.cmdIdx = 0 ∧
  (∀ (completes : Bool) (s : State) (f : Frame) (rest : List Pins), s.cmdReady = true → s.Offers f rest →
    (advanceAt completes s).cmdIdx = s.cmdIdx + 1) ∧
  (∀ (completes : Bool) (s : State), (¬ ∃ f rest, s.cmdReady = true ∧ s.Offers f rest) →
    (advanceAt completes s).cmdIdx = s.cmdIdx)

/-! ### Invariants -/

/-- R19, R53: no command, reset or other event changes the LUT. -/
def Obligations.LutNeverChanges : Prop :=
  (∀ (i : Instr) (s t : State), exec i s = .next t → t.lut = s.lut) ∧
  (∀ (completes : Bool) (s : State), (advanceAt completes s).lut = s.lut) ∧
  (∀ (choices : List Bool) (s : State), (clockedRun choices s).lut = s.lut)

/-- The state after reset meets the invariant of the command-level machine. -/
def Obligations.InvariantHoldsAtReset : Prop := State.reset.Inv

/-- R8, R23: every step keeps the invariant: the table is a legal CRC_TABLE and the block is idle between steps,
whether the step goes on or is refused. -/
def Obligations.StepKeepsInvariant : Prop :=
  (∀ s t : State, s.Inv → step s = .next t → t.Inv) ∧ (∀ s : State, s.Inv → (advance s).Inv) ∧
  (∀ (n : Nat) (s : State), s.Inv → (run n s).Inv)

/-- R108: under a conforming host a run that is not refused never becomes so: every step answers a next state, the
mark stays false, and what the host still drives stays conforming. -/
def Obligations.ConformingHostIsNeverRefused : Prop :=
  (∀ (completes : Bool) (s : State), s.Safe → ∃ t, clockEdge completes s = .next t ∧ t.Safe) ∧
  (∀ (choices : List Bool) (s : State), s.Safe → (clockedRun choices s).Safe)

/-- R17, R82: the accumulator of a run depends on the accumulator, the table, the handshake and what the host drives,
and on nothing else: two runs that differ in `LUT_Q`, the command position and the free-value counter only agree on `ACC` after every edge. While
busy, `ACC` is the model's register, already written (log 3, DESIGN CHOICE). -/
def Obligations.AccumulatorIsDeterminedByCommands : Prop :=
  ∀ (choices : List Bool) (s s' : State), s.Safe → s'.Safe → s.acc = s'.acc → s.lut = s'.lut → s.busy = s'.busy →
    s.port = s'.port → (clockedRun choices s).acc = (clockedRun choices s').acc

/-- R110: at the end of a run that is not refused the result is what the outputs show; a refused run has none. -/
def Obligations.RunResultIsTheOutputs : Prop :=
  (∀ s : State, s.Good → s.atEnd = true →
    ∃ r, s.result = some r ∧ ∀ draw, s.crcOut false draw = r.crc ∧ s.lutOut false draw = r.lut) ∧
  (∀ s : State, s.refused = true → s.result = none) ∧
  (∀ s : State, s.atEnd = false → s.result = none)

/-! ### The fold and the packing -/

/-- R61, R62: `update` is the XOR of the word and then four table steps, each `{c[23:0], 0x00}` XOR the entry at
`c[31:24]`. -/
def Obligations.UpdateIsFourTableSteps : Prop :=
  ∀ (t : Lut) (crc word : Word),
    let tstep := fun c : Word => (c.extractLsb' 0 24 ++ 0x00#8) ^^^ t[(c.extractLsb' 24 8).toNat]'(BitVec.isLt _)
    update t crc word = tstep (tstep (tstep (tstep (crc ^^^ word)))) ∧
    ∀ c : Word, c <<< 8 = c.extractLsb' 0 24 ++ 0x00#8 ∧ (c >>> 24 &&& 0xFF#32).setWidth 8 = c.extractLsb' 24 8

/-- Only the XOR of the accumulator and the word matters, for every table; and folding the accumulator into itself
gives 0 for every table whose entry 0 is 0 (the first two laws of R65). -/
def Obligations.UpdateDependsOnXorOnly : Prop :=
  (∀ (t : Lut) (crc word : Word), update t crc word = update t 0#32 (crc ^^^ word)) ∧
  (∀ (t : Lut) (c : Word), lutRead t 0x00#8 = 0#32 → update t c c = 0#32)

/-- R27: the little-endian word of four stream bytes, its lanes, and that the block takes it unchanged. -/
def Obligations.WordIsLittleEndian : Prop :=
  (∀ b0 b1 b2 b3 : Byte, leWord b0 b1 b2 b3 = b3 ++ (b2 ++ (b1 ++ b0))) ∧
  (∀ b0 b1 b2 b3 : Byte, lane 0 (leWord b0 b1 b2 b3) = b0 ∧ lane 1 (leWord b0 b1 b2 b3) = b1 ∧
    lane 2 (leWord b0 b1 b2 b3) = b2 ∧ lane 3 (leWord b0 b1 b2 b3) = b3) ∧
  (∀ b0 b1 b2 b3 : Byte,
    decode (0x03#8 ++ leWord b0 b1 b2 b3 : BitVec 40) = .command (.foldw (leWord b0 b1 b2 b3))) ∧
  (∀ w : Word, leWord (lane 0 w) (lane 1 w) (lane 2 w) (lane 3 w) = w)

/-- R68: the synthetic word of a tail, as the source's shifts and as `{…}`, most significant byte first. -/
def Obligations.TailIsPackedTowardTheTop : Prop :=
  (∀ b0 : Byte, pack1 b0 = b0.setWidth 32 <<< 24 ∧ pack1 b0 = b0 ++ (0#8 ++ (0#8 ++ 0#8))) ∧
  (∀ b0 b1 : Byte, pack2 b0 b1 = (b0.setWidth 32 ||| (b1.setWidth 32 <<< 8)) <<< 16 ∧
    pack2 b0 b1 = b1 ++ (b0 ++ (0#8 ++ 0#8))) ∧
  (∀ b0 b1 b2 : Byte,
    pack3 b0 b1 b2 = ((b0.setWidth 32 ||| (b1.setWidth 32 <<< 8)) <<< 8) ||| (b2.setWidth 32 <<< 24) ∧
    pack3 b0 b1 b2 = b2 ++ (b1 ++ (b0 ++ 0#8)))

/-- R69: packing is the little-endian word of leading zero bytes and the tail, and the shift of the data lanes. -/
def Obligations.PackingIsZeroBytesThenTail : Prop :=
  (∀ b0 : Byte, pack1 b0 = leWord 0#8 0#8 0#8 b0 ∧ pack1 b0 = leWord b0 0#8 0#8 0#8 <<< 24) ∧
  (∀ b0 b1 : Byte, pack2 b0 b1 = leWord 0#8 0#8 b0 b1 ∧ pack2 b0 b1 = leWord b0 b1 0#8 0#8 <<< 16) ∧
  (∀ b0 b1 b2 : Byte, pack3 b0 b1 b2 = leWord 0#8 b0 b1 b2 ∧ pack3 b0 b1 b2 = leWord b0 b1 b2 0#8 <<< 8)

/-- R70: a tail is one fold of one word: the tail commands do what FOLDW does with the packed word. -/
def Obligations.TailFoldIsOneWordFold : Prop :=
  ∀ s : State, s.Good →
    (∀ b0 : Byte, exec (.foldt1 b0) s = exec (.foldw (pack1 b0)) s) ∧
    (∀ b0 b1 : Byte, exec (.foldt2 b0 b1) s = exec (.foldw (pack2 b0 b1)) s) ∧
    (∀ b0 b1 b2 : Byte, exec (.foldt3 b0 b1 b2) s = exec (.foldw (pack3 b0 b1 b2)) s)

/-! ### The table -/

/-- R54, R55: the two entries the source gives, in the table the block is built with; and from every state whose table
has them, every edge, and every run of edges whatever the host drives, leads to a state whose table has them (R19). -/
def Obligations.GivenTableEntries : Prop :=
  lutRead Config.crcTable 0x00#8 = 0x00000000#32 ∧ lutRead Config.crcTable 0x01#8 = 0x04C11DB7#32 ∧
  (∀ (completes : Bool) (s : State), LutOk s.lut → LutOk (advanceAt completes s).lut) ∧
  (∀ (choices : List Bool) (s : State), LutOk s.lut → LutOk (clockedRun choices s).lut)

/-- R57, R58: every entry of the default table is the value of the generation loop (general knowledge, log 8). -/
def Obligations.DefaultTableIsGenerated : Prop := ∀ b : Byte, lutRead Config.crcTable b = gen b

/-- R59: the default table is linear, its single-bit entries are the listed ones, its entries are pairwise distinct,
and only entry 0 is zero (log 8). -/
def Obligations.DefaultTableIsLinear : Prop :=
  (∀ a b : Byte, lutRead Config.crcTable (a ^^^ b) = lutRead Config.crcTable a ^^^ lutRead Config.crcTable b) ∧
  (lutRead Config.crcTable 0x01#8 = 0x04C11DB7#32 ∧ lutRead Config.crcTable 0x02#8 = 0x09823B6E#32 ∧
   lutRead Config.crcTable 0x04#8 = 0x130476DC#32 ∧ lutRead Config.crcTable 0x08#8 = 0x2608EDB8#32 ∧
   lutRead Config.crcTable 0x10#8 = 0x4C11DB70#32 ∧ lutRead Config.crcTable 0x20#8 = 0x9823B6E0#32 ∧
   lutRead Config.crcTable 0x40#8 = 0x34867077#32 ∧ lutRead Config.crcTable 0x80#8 = 0x690CE0EE#32) ∧
  (∀ a b : Byte, lutRead Config.crcTable a = lutRead Config.crcTable b → a = b) ∧
  (∀ a : Byte, lutRead Config.crcTable a = 0#32 ↔ a = 0#8)

/-- R65: with the default table, `update(0, ·)` is linear and a bijection, so different words folded into one
accumulator give different results (log 8). -/
def Obligations.FoldIsLinearBijection : Prop :=
  (∀ a b : Word, update Config.crcTable 0#32 (a ^^^ b) =
    update Config.crcTable 0#32 a ^^^ update Config.crcTable 0#32 b) ∧
  Function.Bijective (update Config.crcTable 0#32) ∧
  (∀ crc a b : Word, update Config.crcTable crc a = update Config.crcTable crc b → a = b)

/-- R65: the table-driven fold is the bit-at-a-time fold: 32 rounds of the loop body of R57 on `crc ^ word` (log 8). -/
def Obligations.TableFoldEqualsBitSerialFold : Prop :=
  ∀ crc word : Word, update Config.crcTable crc word = genStep^[32] (crc ^^^ word)

/-! ### Whole sequences -/

/-- R81: the empty input leaves the start value; on the block it is INIT and no fold. -/
def Obligations.EmptyInputDigest : Prop :=
  expandCompute [] = [.init] ∧
  (∀ t : Lut, compute t [] = 0xFFFFFFFF#32) ∧ ∀ (t : Lut) (s : Word), computeFrom t s [] = s

/-- R79: the digest word by word: a full word is folded first and the rest follows, down to the tail. -/
def Obligations.DigestUnfoldsWordByWord : Prop :=
  (∀ (t : Lut) (s : Word) (b0 b1 b2 b3 : Byte) (rest : List Byte),
    computeFrom t s (b0 :: b1 :: b2 :: b3 :: rest) = computeFrom t (update t s (leWord b0 b1 b2 b3)) rest) ∧
  (∀ (t : Lut) (s : Word) (b0 : Byte), computeFrom t s [b0] = update t s (pack1 b0)) ∧
  (∀ (t : Lut) (s : Word) (b0 b1 : Byte), computeFrom t s [b0, b1] = update t s (pack2 b0 b1)) ∧
  (∀ (t : Lut) (s : Word) (b0 b1 b2 : Byte), computeFrom t s [b0, b1, b2] = update t s (pack3 b0 b1 b2))

/-- R79: on the block, the commands of `crc.compute` and of `crc.resume` leave the digest in `ACC`, whatever the table
and whatever was computed before, and change nothing else but the command position and the input they took. -/
def Obligations.ScriptComputesDigest : Prop :=
  ∀ (bytes : List Byte) (rest : List Pins) (s : State), s.Good → s.cmdReady = true →
    (s.port = script (expandCompute bytes) ++ rest →
      Host.Core.run core (expandCompute bytes).length s =
        .next { s with
          acc := compute s.lut bytes, cmdIdx := s.cmdIdx + (expandCompute bytes).length, port := rest }) ∧
    (∀ v : Word, s.port = script (expandResume v bytes) ++ rest →
      Host.Core.run core (expandResume v bytes).length s =
        .next { s with
          acc := computeFrom s.lut v bytes, cmdIdx := s.cmdIdx + (expandResume v bytes).length, port := rest })

/-- R83: chaining at a word boundary, for every table and start value. -/
def Obligations.ChainingAtWordBoundary : Prop :=
  ∀ (t : Lut) (s : Word) (a b : List Byte), a.length % 4 = 0 →
    computeFrom t (computeFrom t s a) b = computeFrom t s (a ++ b)

/-- R84: chunks whose lengths, but for the last, are multiples of 4 give the digest of the whole. -/
def Obligations.ChunkingKeepsDigest : Prop :=
  ∀ (t : Lut) (s : Word) (chunks : List (List Byte)) (last : List Byte), (∀ c ∈ chunks, c.length % 4 = 0) →
    computeFrom t (chunks.foldl (computeFrom t) s) last = computeFrom t s (chunks.flatten ++ last)

/-- R71: packing at one length is injective; across lengths a tail with leading zero bytes packs like a shorter one,
so the four inputs the rule names have one digest. -/
def Obligations.TailCollisions : Prop :=
  (∀ b c : Byte, pack1 b = pack1 c → b = c) ∧
  (∀ a b c d : Byte, pack2 a b = pack2 c d → a = c ∧ b = d) ∧
  (∀ a b c d e f : Byte, pack3 a b c = pack3 d e f → a = d ∧ b = e ∧ c = f) ∧
  (∀ b : Byte, pack1 b = pack2 0#8 b ∧ pack1 b = pack3 0#8 0#8 b ∧ pack1 b = leWord 0#8 0#8 0#8 b) ∧
  (∀ a b : Byte, pack2 a b = pack3 0#8 a b) ∧
  (∀ (t : Lut) (s : Word) (pre : List Byte) (b : Byte), pre.length % 4 = 0 →
    computeFrom t s (pre ++ [b]) = computeFrom t s (pre ++ [0#8, b]) ∧
    computeFrom t s (pre ++ [b]) = computeFrom t s (pre ++ [0#8, 0#8, b]) ∧
    computeFrom t s (pre ++ [b]) = computeFrom t s (pre ++ [0#8, 0#8, 0#8, b]))

/-- R71: with the default table, inputs of one length that differ only in the tail never collide (log 8). -/
def Obligations.TailsOfOneLengthNeverCollide : Prop :=
  ∀ (s : Word) (pre a b : List Byte), pre.length % 4 = 0 → a.length = b.length → a.length < 4 →
    computeFrom Config.crcTable s (pre ++ a) = computeFrom Config.crcTable s (pre ++ b) → a = b

/-- R102: a computation that starts right after reset gives the same digest with or without a leading INIT. -/
def Obligations.ResetStandsForInit : Prop :=
  ∀ (bytes : List Byte) (s t : State) (p : Pins), s.Good → s.port = [p] → p.rst = true → step s = .next t →
    (run (expandBytes bytes).length (t.drive (script (expandBytes bytes)))).acc = compute s.lut bytes ∧
    (run (expandCompute bytes).length (t.drive (script (expandCompute bytes)))).acc = compute s.lut bytes

/-! ### Instances and the assembler -/

/-- R97: instances do not interact: stepping one leaves the others as they were, steps of two instances commute, and
instances that share a table go on sharing it. R8: the number of instances is any number of at least one, the argument
of Platform.reset, and no step changes it. -/
def Obligations.InstancesAreIndependent : Prop :=
  (∀ (k j : Nat) (m : Platform), j ≠ k → (m.advanceBlock k).blocks[j]? = m.blocks[j]?) ∧
  (∀ (k : Nat) (m : Platform), (m.advanceBlock k).blocks[k]? = (m.blocks[k]?).map advance) ∧
  (∀ (k j : Nat) (m : Platform), j ≠ k → (m.advanceBlock k).advanceBlock j = (m.advanceBlock j).advanceBlock k) ∧
  (∀ (t : Lut) (k : Nat) (m : Platform), m.sharesLut t → (m.advanceBlock k).sharesLut t) ∧
  (∀ (n : Nat) (h : 1 ≤ n), (Platform.reset n h).nInstances = n ∧ (Platform.reset n h).sharesLut State.reset.lut) ∧
  (∀ (k : Nat) (m : Platform), 1 ≤ m.nInstances ∧ (m.advanceBlock k).nInstances = m.nInstances)

/-- R50: a line assembles exactly when it is well-formed; an operand that does not fit is an error, not a truncation;
and the frames are those of the rule's table, all eight rows. The error names are the model's (log 13). -/
def Obligations.AssemblerChecksOperands : Prop :=
  (∀ line : SourceLine, lineWellFormed line = true ↔ ∃ is, assembleLine line = .ok is) ∧
  (∀ line : SourceLine, arityOk line.op line.operands.length = true → operandsFit line = false →
    assembleLine line = .error .operandTooWide) ∧
  (∃ i, assembleLine ⟨.nop, []⟩ = .ok [i] ∧ (encode i).toNat = 0x00 * 2 ^ 32) ∧
  (∃ i, assembleLine ⟨.init, []⟩ = .ok [i] ∧ (encode i).toNat = 0x01 * 2 ^ 32) ∧
  (∀ v : Nat, v < 2 ^ 32 → ∃ i, assembleLine ⟨.seed, [v]⟩ = .ok [i] ∧ (encode i).toNat = 0x02 * 2 ^ 32 + v) ∧
  (∀ v : Nat, v < 2 ^ 32 → ∃ i, assembleLine ⟨.foldw, [v]⟩ = .ok [i] ∧ (encode i).toNat = 0x03 * 2 ^ 32 + v) ∧
  (∀ a : Nat, a < 2 ^ 8 → ∃ i, assembleLine ⟨.foldt1, [a]⟩ = .ok [i] ∧ (encode i).toNat = 0x04 * 2 ^ 32 + a) ∧
  (∀ a b : Nat, a < 2 ^ 8 → b < 2 ^ 8 →
    ∃ i, assembleLine ⟨.foldt2, [a, b]⟩ = .ok [i] ∧ (encode i).toNat = 0x05 * 2 ^ 32 + b * 2 ^ 8 + a) ∧
  (∀ a b c : Nat, a < 2 ^ 8 → b < 2 ^ 8 → c < 2 ^ 8 →
    ∃ i, assembleLine ⟨.foldt3, [a, b, c]⟩ = .ok [i] ∧
      (encode i).toNat = 0x06 * 2 ^ 32 + c * 2 ^ 16 + b * 2 ^ 8 + a) ∧
  (∀ k : Nat, k < 2 ^ 8 → ∃ i, assembleLine ⟨.lutrd, [k]⟩ = .ok [i] ∧ (encode i).toNat = 0x07 * 2 ^ 32 + k)

/-- R51: what the pseudo-commands expand to: the number of folds, and the sequence that the digest comes from. -/
def Obligations.PseudoCommandsExpand : Prop :=
  (∀ a b c d : Nat, a < 2 ^ 8 → b < 2 ^ 8 → c < 2 ^ 8 → d < 2 ^ 8 →
    assembleLine ⟨.foldb4, [a, b, c, d]⟩ =
      .ok [.foldw (BitVec.ofNat 32 (a + b * 2 ^ 8 + c * 2 ^ 16 + d * 2 ^ 24))]) ∧
  (∀ bytes : List Byte, (expandBytes bytes).length = (bytes.length + 3) / 4) ∧
  expandBytes [] = [] ∧
  (∀ (b0 b1 b2 b3 : Byte) (rest : List Byte),
    expandBytes (b0 :: b1 :: b2 :: b3 :: rest) = .foldw (leWord b0 b1 b2 b3) :: expandBytes rest) ∧
  (∀ b0 : Byte, expandBytes [b0] = [.foldt1 b0]) ∧
  (∀ b0 b1 : Byte, expandBytes [b0, b1] = [.foldt2 b0 b1]) ∧
  (∀ b0 b1 b2 : Byte, expandBytes [b0, b1, b2] = [.foldt3 b0 b1 b2]) ∧
  (∀ bytes : List Byte,
    assembleLine ⟨.bytes, bytes.map BitVec.toNat⟩ = .ok (expandBytes bytes) ∧
    assembleLine ⟨.compute, bytes.map BitVec.toNat⟩ = .ok (.init :: expandBytes bytes)) ∧
  (∀ (v : Word) (bytes : List Byte),
    assembleLine ⟨.resume, v.toNat :: bytes.map BitVec.toNat⟩ = .ok (.seed v :: expandBytes bytes))
end

