-- ==== Sys2Proof/Laws/State.lean ====
section
/-! SUPPORT. The fields of every state update: one lemma per field per update, so that no later proof unfolds a record
update. -/

namespace Sys2Proof.Machine

@[simp] theorem State.setAcc_acc (s : State) (v : Word) : (s.setAcc v).acc = v := rfl
@[simp] theorem State.setAcc_lutQ (s : State) (v : Word) : (s.setAcc v).lutQ = s.lutQ := rfl
@[simp] theorem State.setAcc_lut (s : State) (v : Word) : (s.setAcc v).lut = s.lut := rfl
@[simp] theorem State.setAcc_busy (s : State) (v : Word) : (s.setAcc v).busy = s.busy := rfl
@[simp] theorem State.setAcc_cmdIdx (s : State) (v : Word) : (s.setAcc v).cmdIdx = s.cmdIdx := rfl
@[simp] theorem State.setAcc_refused (s : State) (v : Word) : (s.setAcc v).refused = s.refused := rfl
@[simp] theorem State.setAcc_port (s : State) (v : Word) : (s.setAcc v).port = s.port := rfl
@[simp] theorem State.setAcc_draws (s : State) (v : Word) : (s.setAcc v).draws = s.draws := rfl

@[simp] theorem State.setLutQ_acc (s : State) (v : Word) : (s.setLutQ v).acc = s.acc := rfl
@[simp] theorem State.setLutQ_lutQ (s : State) (v : Word) : (s.setLutQ v).lutQ = v := rfl
@[simp] theorem State.setLutQ_lut (s : State) (v : Word) : (s.setLutQ v).lut = s.lut := rfl
@[simp] theorem State.setLutQ_busy (s : State) (v : Word) : (s.setLutQ v).busy = s.busy := rfl
@[simp] theorem State.setLutQ_cmdIdx (s : State) (v : Word) : (s.setLutQ v).cmdIdx = s.cmdIdx := rfl
@[simp] theorem State.setLutQ_refused (s : State) (v : Word) : (s.setLutQ v).refused = s.refused := rfl
@[simp] theorem State.setLutQ_port (s : State) (v : Word) : (s.setLutQ v).port = s.port := rfl
@[simp] theorem State.setLutQ_draws (s : State) (v : Word) : (s.setLutQ v).draws = s.draws := rfl

@[simp] theorem State.advanceCmd_acc (s : State) : (s.advanceCmd).acc = s.acc := rfl
@[simp] theorem State.advanceCmd_lutQ (s : State) : (s.advanceCmd).lutQ = s.lutQ := rfl
@[simp] theorem State.advanceCmd_lut (s : State) : (s.advanceCmd).lut = s.lut := rfl
@[simp] theorem State.advanceCmd_busy (s : State) : (s.advanceCmd).busy = s.busy := rfl
@[simp] theorem State.advanceCmd_cmdIdx (s : State) : (s.advanceCmd).cmdIdx = s.cmdIdx + 1 := rfl
@[simp] theorem State.advanceCmd_refused (s : State) : (s.advanceCmd).refused = s.refused := rfl
@[simp] theorem State.advanceCmd_port (s : State) : (s.advanceCmd).port = s.port := rfl
@[simp] theorem State.advanceCmd_draws (s : State) : (s.advanceCmd).draws = s.draws := rfl

@[simp] theorem State.unclaim_acc (s : State) : (s.unclaim).acc = Config.freeWord s.draws := rfl
@[simp] theorem State.unclaim_lutQ (s : State) : (s.unclaim).lutQ = Config.freeWord (s.draws + 1) := rfl
@[simp] theorem State.unclaim_lut (s : State) : (s.unclaim).lut = s.lut := rfl
@[simp] theorem State.unclaim_busy (s : State) : (s.unclaim).busy = s.busy := rfl
@[simp] theorem State.unclaim_cmdIdx (s : State) : (s.unclaim).cmdIdx = s.cmdIdx := rfl
@[simp] theorem State.unclaim_refused (s : State) : (s.unclaim).refused = s.refused := rfl
@[simp] theorem State.unclaim_port (s : State) : (s.unclaim).port = s.port := rfl
@[simp] theorem State.unclaim_draws (s : State) : (s.unclaim).draws = s.draws + 2 := rfl

@[simp] theorem State.takeRefusal_acc (s : State) : (s.takeRefusal).acc = Config.freeWord s.draws := rfl
@[simp] theorem State.takeRefusal_lutQ (s : State) : (s.takeRefusal).lutQ = Config.freeWord (s.draws + 1) := rfl
@[simp] theorem State.takeRefusal_lut (s : State) : (s.takeRefusal).lut = s.lut := rfl
@[simp] theorem State.takeRefusal_busy (s : State) : (s.takeRefusal).busy = s.busy := rfl
@[simp] theorem State.takeRefusal_cmdIdx (s : State) : (s.takeRefusal).cmdIdx = s.cmdIdx + 1 := rfl
@[simp] theorem State.takeRefusal_refused (s : State) : (s.takeRefusal).refused = true := rfl
@[simp] theorem State.takeRefusal_port (s : State) : (s.takeRefusal).port = s.port := rfl
@[simp] theorem State.takeRefusal_draws (s : State) : (s.takeRefusal).draws = s.draws + 2 := rfl

@[simp] theorem State.fold_acc (s : State) (w : Word) : (s.fold w).acc = update s.lut s.acc w := rfl
@[simp] theorem State.fold_lutQ (s : State) (w : Word) : (s.fold w).lutQ = s.lutQ := rfl
@[simp] theorem State.fold_lut (s : State) (w : Word) : (s.fold w).lut = s.lut := rfl
@[simp] theorem State.fold_busy (s : State) (w : Word) : (s.fold w).busy = s.busy := rfl
@[simp] theorem State.fold_cmdIdx (s : State) (w : Word) : (s.fold w).cmdIdx = s.cmdIdx + 1 := rfl
@[simp] theorem State.fold_refused (s : State) (w : Word) : (s.fold w).refused = s.refused := rfl
@[simp] theorem State.fold_port (s : State) (w : Word) : (s.fold w).port = s.port := rfl
@[simp] theorem State.fold_draws (s : State) (w : Word) : (s.fold w).draws = s.draws := rfl

@[simp] theorem State.drive_acc (s : State) (ps : List Pins) : (s.drive ps).acc = s.acc := rfl
@[simp] theorem State.drive_lutQ (s : State) (ps : List Pins) : (s.drive ps).lutQ = s.lutQ := rfl
@[simp] theorem State.drive_lut (s : State) (ps : List Pins) : (s.drive ps).lut = s.lut := rfl
@[simp] theorem State.drive_busy (s : State) (ps : List Pins) : (s.drive ps).busy = s.busy := rfl
@[simp] theorem State.drive_cmdIdx (s : State) (ps : List Pins) : (s.drive ps).cmdIdx = s.cmdIdx := rfl
@[simp] theorem State.drive_refused (s : State) (ps : List Pins) : (s.drive ps).refused = s.refused := rfl
@[simp] theorem State.drive_port (s : State) (ps : List Pins) : (s.drive ps).port = s.port ++ ps := rfl
@[simp] theorem State.drive_draws (s : State) (ps : List Pins) : (s.drive ps).draws = s.draws := rfl

@[simp] theorem State.offerNext_acc (s : State) (f : Frame) : (s.offerNext f).acc = s.acc := rfl
@[simp] theorem State.offerNext_lutQ (s : State) (f : Frame) : (s.offerNext f).lutQ = s.lutQ := rfl
@[simp] theorem State.offerNext_lut (s : State) (f : Frame) : (s.offerNext f).lut = s.lut := rfl
@[simp] theorem State.offerNext_busy (s : State) (f : Frame) : (s.offerNext f).busy = false := rfl
@[simp] theorem State.offerNext_cmdIdx (s : State) (f : Frame) : (s.offerNext f).cmdIdx = s.cmdIdx := rfl
@[simp] theorem State.offerNext_refused (s : State) (f : Frame) : (s.offerNext f).refused = s.refused := rfl
@[simp] theorem State.offerNext_port (s : State) (f : Frame) : (s.offerNext f).port = offer f :: s.port := rfl
@[simp] theorem State.offerNext_draws (s : State) (f : Frame) : (s.offerNext f).draws = s.draws := rfl

/-- Outside a refused run, settle does nothing. -/
theorem State.settle_of_good (s : State) (h : s.Good) : s.settle = s := by
  simp [State.settle, show s.refused = false from h]

/-- In a refused run, settle takes the free values. -/
theorem State.settle_of_refused (s : State) (h : s.refused = true) : s.settle = s.unclaim := by
  simp [State.settle, h]

@[simp] theorem State.settle_lut (s : State) : s.settle.lut = s.lut := by
  unfold State.settle; split <;> rfl

@[simp] theorem State.settle_busy (s : State) : s.settle.busy = s.busy := by
  unfold State.settle; split <;> rfl

@[simp] theorem State.settle_cmdIdx (s : State) : s.settle.cmdIdx = s.cmdIdx := by
  unfold State.settle; split <;> rfl

@[simp] theorem State.settle_refused (s : State) : s.settle.refused = s.refused := by
  unfold State.settle; split <;> rfl

@[simp] theorem State.settle_port (s : State) : s.settle.port = s.port := by
  unfold State.settle; split <;> rfl

@[simp] theorem State.resetEvent_lut (s : State) : s.resetEvent.lut = s.lut := by
  simp [State.resetEvent]

@[simp] theorem State.resetEvent_busy (s : State) : s.resetEvent.busy = false := by
  simp [State.resetEvent]

@[simp] theorem State.resetEvent_cmdIdx (s : State) : s.resetEvent.cmdIdx = s.cmdIdx := by
  simp [State.resetEvent]

@[simp] theorem State.resetEvent_refused (s : State) : s.resetEvent.refused = s.refused := by
  simp [State.resetEvent]

@[simp] theorem State.resetEvent_port (s : State) : s.resetEvent.port = s.port := by
  simp [State.resetEvent]

/-- What the reset event leaves outside a refused run (R24, R100). -/
theorem State.resetEvent_of_good (s : State) (h : s.Good) :
    s.resetEvent = { s with acc := Config.accReset, lutQ := Config.lutQReset, busy := false } :=
  State.settle_of_good _ h

/-! The state after a refused frame. -/

@[simp] theorem afterRefusal_acc (c : Bool) (s : State) : (afterRefusal c s).acc = (Config.freeWord s.draws) := rfl
@[simp] theorem afterRefusal_lutQ (c : Bool) (s : State) : (afterRefusal c s).lutQ = (Config.freeWord (s.draws + 1)) := rfl
@[simp] theorem afterRefusal_lut (c : Bool) (s : State) : (afterRefusal c s).lut = s.lut := rfl
@[simp] theorem afterRefusal_busy (c : Bool) (s : State) : (afterRefusal c s).busy = (!c) := rfl
@[simp] theorem afterRefusal_cmdIdx (c : Bool) (s : State) : (afterRefusal c s).cmdIdx = (s.cmdIdx + 1) := rfl
@[simp] theorem afterRefusal_refused (c : Bool) (s : State) : (afterRefusal c s).refused = true := rfl
@[simp] theorem afterRefusal_port (c : Bool) (s : State) : (afterRefusal c s).port = s.port.tail := rfl
@[simp] theorem afterRefusal_draws (c : Bool) (s : State) : (afterRefusal c s).draws = (s.draws + 2) := rfl

end Sys2Proof.Machine
end

