-- ==== Sys2Proof/Laws/Decode.lean ====
section
/-! SUPPORT. The fields of a frame put together by mkFrame, and what an offered frame reads back as. -/

namespace Sys2Proof.Machine

@[simp] theorem frameOp_mkFrame (op : Byte) (data : Word) : frameOp (mkFrame op data) = op := by
  unfold frameOp mkFrame
  apply BitVec.eq_of_getLsbD_eq
  intro i hi
  rw [BitVec.getLsbD_extractLsb', BitVec.getLsbD_append]
  simp [hi]

@[simp] theorem frameData_mkFrame (op : Byte) (data : Word) : frameData (mkFrame op data) = data := by
  unfold frameData mkFrame
  apply BitVec.eq_of_getLsbD_eq
  intro i hi
  rw [BitVec.getLsbD_extractLsb', BitVec.getLsbD_append]
  simp [hi]

@[simp] theorem mkFrame_op_data (f : Frame) : mkFrame (frameOp f) (frameData f) = f := by
  unfold frameOp frameData mkFrame
  apply BitVec.eq_of_getLsbD_eq
  intro i hi
  rw [BitVec.getLsbD_append]
  by_cases h : i < 32
  · simp [h]
  · have h8 : i - 32 < 8 := by omega
    have he : 32 + (i - 32) = i := by omega
    simp [h, h8, he]

@[simp] theorem offer_rst (f : Frame) : (offer f).rst = false := rfl

@[simp] theorem offer_cmdValid (f : Frame) : (offer f).cmdValid = true := rfl

@[simp] theorem offer_frame (f : Frame) : (offer f).frame = f := mkFrame_op_data f

end Sys2Proof.Machine
end

