-- ==== Sys2Proof/Laws/Ops.lean ====
section
/-! SUPPORT. What each shared operation can do, said once: settling an answer, accepting a frame, a clock edge, and
one step of a run. -/

namespace Sys2Proof.Machine

/-- Settling an answer keeps its kind and settles its state. -/
theorem settleOutcome_next_iff (o : Host.Outcome State Fault Refusal) (t : State) :
    settleOutcome o = .next t ↔ ∃ u, o = .next u ∧ t = u.settle := by
  cases o with
  | next u =>
    constructor
    · intro h
      exact ⟨u, rfl, by cases h; rfl⟩
    · rintro ⟨v, hv, rfl⟩
      cases hv
      rfl
  | fault r => exact nomatch r
  | refused r =>
    constructor
    · intro h
      cases h
    · rintro ⟨v, hv, -⟩
      cases hv

theorem settleOutcome_next (u : State) : settleOutcome (.next u) = .next u.settle := rfl

/-- Accepting a frame that decodes to a command. -/
theorem accept_command (c : Bool) (f : Frame) (s : State) (i : Instr) (h : decode f = .command i) :
    accept c f s = settleOutcome (exec i { s with busy := !c }) := by
  simp [accept, h]

/-- Accepting a frame that decodes to a refusal. -/
theorem accept_refused (c : Bool) (f : Frame) (s : State) (r : RefusalReason) (h : decode f = .refused r) :
    accept c f s = .refused (.undefinedFrame r) := by
  simp [accept, h]

/-- An edge of a host that drives nothing more. -/
theorem clockEdge_nil (c : Bool) (s : State) (h : s.port = []) :
    clockEdge c s = .next { s with busy := s.busy && !c } := by
  unfold clockEdge
  rw [h]

/-- An edge at which reset is active. -/
theorem clockEdge_rst (c : Bool) (s : State) (p : Pins) (rest : List Pins) (h : s.port = p :: rest)
    (hr : p.rst = true) : clockEdge c s = .next (State.resetEvent { s with port := rest }) := by
  unfold clockEdge
  rw [h]
  simp [hr]

/-- An edge while a command is in execution. -/
theorem clockEdge_busy (c : Bool) (s : State) (p : Pins) (rest : List Pins) (h : s.port = p :: rest)
    (hr : p.rst = false) (hb : s.busy = true) :
    clockEdge c s = .next { s with busy := !c, port := if p.cmdValid then p :: rest else rest } := by
  unfold clockEdge
  rw [h]
  simp [hr, hb]

/-- An edge at which a frame is accepted. -/
theorem clockEdge_offer (c : Bool) (s : State) (p : Pins) (rest : List Pins) (h : s.port = p :: rest)
    (hr : p.rst = false) (hb : s.busy = false) (hv : p.cmdValid = true) :
    clockEdge c s = accept c p.frame { s with port := rest } := by
  unfold clockEdge
  rw [h]
  simp [hr, hb, hv]

/-- An edge of an idle block at which nothing is offered. -/
theorem clockEdge_idle (c : Bool) (s : State) (p : Pins) (rest : List Pins) (h : s.port = p :: rest)
    (hr : p.rst = false) (hb : s.busy = false) (hv : p.cmdValid = false) :
    clockEdge c s = .next { s with port := rest } := by
  unfold clockEdge
  rw [h]
  simp [hr, hb, hv]

/-- Everything a clock edge can do: one of the five cases above. -/
theorem clockEdge_cases (c : Bool) (s : State) :
    (s.port = [] ∧ clockEdge c s = .next { s with busy := s.busy && !c }) ∨
    ∃ p rest, s.port = p :: rest ∧
      ((p.rst = true ∧ clockEdge c s = .next (State.resetEvent { s with port := rest })) ∨
       (p.rst = false ∧ s.busy = true ∧
          clockEdge c s = .next { s with busy := !c, port := if p.cmdValid then p :: rest else rest }) ∨
       (p.rst = false ∧ s.busy = false ∧ p.cmdValid = true ∧
          clockEdge c s = accept c p.frame { s with port := rest }) ∨
       (p.rst = false ∧ s.busy = false ∧ p.cmdValid = false ∧ clockEdge c s = .next { s with port := rest })) := by
  obtain hp | ⟨p, rest, hp⟩ : s.port = [] ∨ ∃ p rest, s.port = p :: rest := by
    cases s.port <;> simp
  · exact .inl ⟨hp, clockEdge_nil c s hp⟩
  · refine .inr ⟨p, rest, hp, ?_⟩
    rcases Bool.eq_false_or_eq_true p.rst with hr | hr
    · exact .inl ⟨hr, clockEdge_rst c s p rest hp hr⟩
    · rcases Bool.eq_false_or_eq_true s.busy with hb | hb
      · exact .inr (.inl ⟨hr, hb, clockEdge_busy c s p rest hp hr hb⟩)
      · rcases Bool.eq_false_or_eq_true p.cmdValid with hv | hv
        · exact .inr (.inr (.inl ⟨hr, hb, hv, clockEdge_offer c s p rest hp hr hb hv⟩))
        · exact .inr (.inr (.inr ⟨hr, hb, hv, clockEdge_idle c s p rest hp hr hb hv⟩))

/-- A step of a run after an edge that answers a next state. -/
theorem advanceAt_next (c : Bool) (s t : State) (h : clockEdge c s = .next t) : advanceAt c s = t := by
  simp [advanceAt, h]

/-- A step of instance `k` is a step of its run, at its position. -/
@[simp] theorem Platform.advanceBlock_blocks (k : Nat) (m : Platform) :
    (m.advanceBlock k).blocks = m.blocks.modify k advance := rfl

/-- After reset every instance is in the state after reset. -/
@[simp] theorem Platform.reset_blocks (n : Nat) (h : 1 ≤ n) :
    (Platform.reset n h).blocks = List.replicate n State.reset := rfl

/-- A step of a run after a refused frame. -/
theorem advanceAt_refused (c : Bool) (s : State) (r : Refusal) (h : clockEdge c s = .refused r) :
    advanceAt c s = afterRefusal c s := by
  simp [advanceAt, h]

end Sys2Proof.Machine
end

