-- ==== Sys2Proof/Laws/PerInstr.lean ====
section
/-! SUPPORT. One statement about every command as syntax: its frame lies in its own row of the match and mask table of
spec/30_encoding.md R44. -/

namespace Sys2Proof.Laws.FrameInRow

open Sys2Proof.Machine

/-- The frame of the command matches the command's row, and the row is in the table (R44). -/
def Statement (i : Instr) : Prop :=
  rowMatches (opcodeRow i) (encode i) = true ∧ opcodeRow i ∈ opcodeRows

/-- Masking a frame masks its two fields. -/
theorem mkFrame_and (op op' : Byte) (d d' : Word) :
    mkFrame op d &&& mkFrame op' d' = mkFrame (op &&& op') (d &&& d') := by
  unfold mkFrame
  exact BitVec.and_append

theorem nop : Statement .nop := by unfold Statement; decide

theorem init : Statement .init := by unfold Statement; decide

theorem seed (s : Word) : Statement (.seed s) := by
  refine ⟨?_, by simp [opcodeRow, opcodeRows]⟩
  have h := mkFrame_and 0x02#8 0xFF#8 s 0#32
  simp only [rowMatches, opcodeRow, encode, beq_iff_eq]
  rw [show (0xFF00000000#40 : Frame) = mkFrame 0xFF#8 0#32 by decide, h, BitVec.and_zero]
  decide

theorem foldw (w : Word) : Statement (.foldw w) := by
  refine ⟨?_, by simp [opcodeRow, opcodeRows]⟩
  have h := mkFrame_and 0x03#8 0xFF#8 w 0#32
  simp only [rowMatches, opcodeRow, encode, beq_iff_eq]
  rw [show (0xFF00000000#40 : Frame) = mkFrame 0xFF#8 0#32 by decide, h, BitVec.and_zero]
  decide

theorem foldt1 (b0 : Byte) : Statement (.foldt1 b0) := by
  refine ⟨?_, by simp [opcodeRow, opcodeRows]⟩
  decide +revert

theorem lutrd (i : Byte) : Statement (.lutrd i) := by
  refine ⟨?_, by simp [opcodeRow, opcodeRows]⟩
  decide +revert

theorem foldt2 (b0 b1 : Byte) : Statement (.foldt2 b0 b1) := by
  refine ⟨?_, by simp [opcodeRow, opcodeRows]⟩
  simp only [rowMatches, opcodeRow, encode, beq_iff_eq]
  rw [show (0xFFFFFF0000#40 : Frame) = mkFrame 0xFF#8 (0xFFFF#16 ++ (0#8 ++ 0#8)) by decide, mkFrame_and,
    BitVec.and_append, BitVec.and_append, BitVec.and_zero, BitVec.and_zero]
  decide

theorem foldt3 (b0 b1 b2 : Byte) : Statement (.foldt3 b0 b1 b2) := by
  refine ⟨?_, by simp [opcodeRow, opcodeRows]⟩
  simp only [rowMatches, opcodeRow, encode, beq_iff_eq]
  rw [show (0xFFFF000000#40 : Frame) = mkFrame 0xFF#8 (0xFF#8 ++ (0#8 ++ (0#8 ++ 0#8))) by decide, mkFrame_and,
    BitVec.and_append, BitVec.and_append, BitVec.and_append, BitVec.and_zero, BitVec.and_zero, BitVec.and_zero]
  decide

end Sys2Proof.Laws.FrameInRow
end

