-- ==== Sys2Proof/Tests/Slice0.lean ====
section
/-! SUPPORT. Tests of the model, each expected value from spec/95_test_vectors.md or the rule named; the smoke tests of
well-formedness; and, for every statement with hypotheses, a witness that meets them (witness_<statement>). -/

namespace Sys2Proof.Tests

open Sys2Proof Sys2Proof.Machine

/-- The command registers after one command from reset with `ACC` set to `acc`: `ACC`, `LUT_Q`, `cmd_idx`. -/
def after (acc : Word) (i : Instr) : Option (Word × Word × Nat) :=
  match exec i { State.reset with acc := acc } with
  | .next t => some (t.acc, t.lutQ, t.cmdIdx)
  | .fault _ => none
  | .refused _ => none

/-- The registers after one step from reset that is offered a row of the opcode table. -/
def stepOn (w : Nat) : Option (Word × Word × Nat) :=
  match step (State.reset.withFetchWord 40 w) with
  | .next t => some (t.acc, t.lutQ, t.cmdIdx)
  | .fault _ => none
  | .refused _ => none

/-! ### Well-formedness: an ill-formed term for each check -/

theorem test_wf_reserved_opcode : frameWellFormed 0x0800000000#40 = false := by decide
theorem test_wf_nop_bits : frameWellFormed 0x0000000001#40 = false := by decide
theorem test_wf_init_bits : frameWellFormed 0x0180000000#40 = false := by decide
theorem test_wf_foldt1_bits : frameWellFormed 0x0400000100#40 = false := by decide
theorem test_wf_foldt2_bits : frameWellFormed 0x0500010000#40 = false := by decide
theorem test_wf_foldt3_bits : frameWellFormed 0x0601000000#40 = false := by decide
theorem test_wf_lutrd_bits : frameWellFormed 0x0700000100#40 = false := by decide
theorem test_wf_frames : frameWellFormed 0x03FFFFFFFF#40 = true ∧ frameWellFormed 0x0600FFFFFF#40 = true := by decide
theorem test_wf_too_few_operands : lineWellFormed ⟨.lutrd, []⟩ = false := by decide
theorem test_wf_too_many_operands : lineWellFormed ⟨.nop, [0]⟩ = false := by decide
theorem test_wf_resume_without_value : lineWellFormed ⟨.resume, []⟩ = false := by decide
theorem test_wf_word_too_wide : lineWellFormed ⟨.seed, [2 ^ 32]⟩ = false := by decide
theorem test_wf_byte_too_wide : lineWellFormed ⟨.foldt2, [0, 256]⟩ = false := by decide
theorem test_wf_lines : lineWellFormed ⟨.seed, [2 ^ 32 - 1]⟩ = true ∧ lineWellFormed ⟨.foldt2, [255, 255]⟩ = true := by decide

/-! ### Decoding: each command's frame written out from R44 and the vectors of 95 section 2 -/

theorem test_decode_nop : decode 0x0000000000#40 = .command .nop := by decide
theorem test_decode_init : decode 0x0100000000#40 = .command .init := by decide
theorem test_decode_seed : decode 0x021DABE74F#40 = .command (.seed 0x1DABE74F#32) := by decide
theorem test_decode_foldw : decode 0x0304030201#40 = .command (.foldw 0x04030201#32) := by decide
theorem test_decode_foldt1 : decode 0x04000000FF#40 = .command (.foldt1 0xFF#8) := by decide
theorem test_decode_foldt2 : decode 0x0500000605#40 = .command (.foldt2 0x05#8 0x06#8) := by decide
theorem test_decode_foldt3 : decode 0x0600070605#40 = .command (.foldt3 0x05#8 0x06#8 0x07#8) := by decide
theorem test_decode_lutrd : decode 0x07000000C0#40 = .command (.lutrd 0xC0#8) := by decide
theorem test_decode_reserved : decode 0xFF00000000#40 = .refused .reservedOpcode := by decide
theorem test_encode_foldt2 : encode (.foldt2 0x05#8 0x06#8) = 0x0500000605#40 := by decide
theorem test_encode_foldt3 : encode (.foldt3 0x01#8 0x02#8 0x03#8) = 0x0600030201#40 := by decide
theorem test_table_word : decodeTableWord 40 0x0600FFFFFF = some (.foldt3 0xFF#8 0xFF#8 0xFF#8) := by decide
theorem test_table_word_refused : decodeTableWord 40 0x0800000000 = none := by decide

/-! ### The commands (95 sections 2.1 to 2.4) -/

/-- V-FOLD-1. -/
theorem test_foldw : after 0xFFFFFFFF#32 (.foldw 0x04030201#32) = some (0x1DABE74F#32, 0#32, 1) := by decide
/-- V-FOLD-11: the top bit only. -/
theorem test_foldw_top_bit : after 0x80000000#32 (.foldw 0#32) = some (0xA6E63D1D#32, 0#32, 1) := by decide
/-- V-TAIL-1. -/
theorem test_foldt1 : after 0xFFFFFFFF#32 (.foldt1 0x05#8) = some (0x679C0BC9#32, 0#32, 1) := by decide
/-- W5, program P1: the tail word is `0x06050000`. -/
theorem test_foldt2 : after 0x1DABE74F#32 (.foldt2 0x05#8 0x06#8) = some (0x6BB36ACF#32, 0#32, 1) := by decide
/-- V-TAIL-7: three different bytes. -/
theorem test_foldt3 : after 0xFFFFFFFF#32 (.foldt3 0x01#8 0x02#8 0x03#8) = some (0x76DBF7C7#32, 0#32, 1) := by decide
/-- V-SEQ-1. -/
theorem test_init : after 0x12345678#32 .init = some (0xFFFFFFFF#32, 0#32, 1) := by decide
/-- V-SEQ-2. -/
theorem test_seed : after 0xFFFFFFFF#32 (.seed 0x1DABE74F#32) = some (0x1DABE74F#32, 0#32, 1) := by decide
/-- V-SEQ-3. -/
theorem test_nop : after 0xDEADBEEF#32 .nop = some (0xDEADBEEF#32, 0#32, 1) := by decide
/-- V-LUT-8 and V-LUT-6. -/
theorem test_lutrd_last : after 0x12345678#32 (.lutrd 0xFF#8) = some (0x12345678#32, 0xB1F740B4#32, 1) := by decide
theorem test_lutrd_top_bit : after 0x12345678#32 (.lutrd 0x80#8) = some (0x12345678#32, 0x690CE0EE#32, 1) := by decide

/-! ### Steps -/

theorem test_step_foldw : stepOn 0x0312345678 = some (0xDF8A8A2B#32, 0#32, 1) := by decide
theorem test_step_lutrd : stepOn 0x0700000003 = some (0xFFFFFFFF#32, 0x0D4326D9#32, 1) := by decide
theorem test_step_refused : step (State.reset.withFetchWord 40 0x0400000100) = .refused (.undefinedFrame .nonzeroReservedBits) := rfl
/-- P5: the refused frame advances the position and sets the mark. -/
theorem test_refused_mark : (advance (State.reset.withFetchWord 40 0x0400000100)).refused = true ∧
    (advance (State.reset.withFetchWord 40 0x0400000100)).cmdIdx = 1 := by decide
/-- R91: reset wins over an offered frame. -/
theorem test_reset_wins : (advance { State.reset with acc := 5#32, port := [⟨true, true, 0x02#8, 7#32⟩] }).acc = 0xFFFFFFFF#32 := by
  decide
/-- R8: a low level of `rst` resets a block whose reset is active low, and not one whose reset is active high. -/
theorem test_reset_style : (ResetStyle.pins ⟨true, false⟩ false true 0x02#8 7#32).rst = true ∧
    (ResetStyle.pins ⟨true, true⟩ false true 0x02#8 7#32).rst = false := by decide
/-- R104: a sample while busy is the draw. -/
theorem test_busy_sample : (advanceAt false (State.reset.offerNext 0x0200000007#40)).crcOut false 9#32 = 9#32 := by decide

/-! ### The default table, the digest and the assembler -/

/-- V-SEQ-21: ASCII "123456789". -/
theorem test_digest : compute Config.crcTable
    [0x31#8, 0x32#8, 0x33#8, 0x34#8, 0x35#8, 0x36#8, 0x37#8, 0x38#8, 0x39#8] = 0x61706427#32 := by decide
/-- V-SEQ-6: chaining off a word boundary differs. -/
theorem test_no_chaining : computeFrom Config.crcTable
    (compute Config.crcTable [0x01#8, 0x02#8, 0x03#8, 0x04#8, 0x05#8]) [0x06#8] = 0x1E9B6C2A#32 := by decide
/-- R50's example. -/
theorem test_asm_foldt2 :
    assembleText "crc.foldt2 0x05, 0x06 ; tail".toList = .ok [.foldt2 0x05#8 0x06#8] := by decide
theorem test_asm_lines : assembleText "crc.init\n\n crc.foldw 67305985".toList = .ok [.init, .foldw 0x04030201#32] := by decide
theorem test_asm_too_wide : assembleText "crc.foldt1 256".toList = .error .operandTooWide := by decide
theorem test_asm_pseudo : assembleText "crc.resume 0x1DABE74F, 5, 6".toList =
    .ok [.seed 0x1DABE74F#32, .foldt2 0x05#8 0x06#8] := by decide

/-! ### Witnesses: the hypotheses of the statements can be met -/

/-- A block that is ready and offered a frame, with an idle edge to follow. -/
def offered (f : Frame) : State := { State.reset with port := [offer f, ⟨false, false, 0#8, 0#32⟩] }

/-- A block that is executing a command. -/
def executing (ps : List Pins) : State := { State.reset with busy := true, port := ps }

/-- A refused run. -/
def marked : State := { State.reset with refused := true }

theorem good_reset : State.reset.Good := rfl

theorem crcTable_ok : LutOk Config.crcTable := by decide

theorem offered_offers (f : Frame) : (offered f).Offers f [⟨false, false, 0#8, 0#32⟩] := by
  refine ⟨offer f, rfl, rfl, rfl, ?_⟩
  simp only [offer, Pins.frame]
  unfold mkFrame frameOp frameData
  apply BitVec.eq_of_getLsbD_eq
  intro i hi
  rw [BitVec.getLsbD_append]
  by_cases h : i < 32
  · simp [h]
  · simp [h, show i - 32 < 8 by omega, show 32 + (i - 32) = i by omega]

theorem witness_BitPatternsAndRows :
    decode 0x07000000FF#40 = .command (.lutrd 0xFF#8) ∧
    (⟨0x0700000000#40, 0xFFFFFFFF00#40⟩ : OpcodeRow) ∈ opcodeRows ∧
    rowMatches ⟨0x0700000000#40, 0xFFFFFFFF00#40⟩ 0x07000000FF#40 = true := by decide

theorem witness_OperandsTakenUnchanged :
    decode 0x02FFFFFFFF#40 = .command (.seed 0xFFFFFFFF#32) ∧ decode 0x0380000001#40 = .command (.foldw 0x80000001#32) ∧
    decode 0x04000000FF#40 = .command (.foldt1 0xFF#8) ∧ decode 0x050000FF00#40 = .command (.foldt2 0x00#8 0xFF#8) ∧
    decode 0x0600FF0100#40 = .command (.foldt3 0x00#8 0x01#8 0xFF#8) ∧ decode 0x07000000FF#40 = .command (.lutrd 0xFF#8) := by
  decide

theorem witness_DecoderRefusesExactlyReserved :
    0x08 ≤ ((0x0800000000#40 : Frame).extractLsb' 32 8).toNat ∧
    (mustBeZero 0x07#8 = some 0xFFFFFF00#32 ∧ (0x00000100#32 : Word) &&& 0xFFFFFF00#32 ≠ 0#32) ∧
    frameWellFormed 0x07000000FF#40 = true := by decide

theorem witness_NopOnlyAdvances : State.reset.Good ∧ (0x00000001#32 : Word) ≠ 0#32 := ⟨rfl, by decide⟩

theorem witness_InitSetsStartValue : ∃ t, State.reset.Good ∧ exec .init State.reset = .next t ∧
    (0x80000000#32 : Word) ≠ 0#32 := ⟨_, rfl, rfl, by decide⟩

/-- A table whose entry 0 is 0 and whose entry 1 is not the one of R55: the clause on entry 0 asks no more. -/
def zeroTable : Lut := Vector.replicate 256 0#32

theorem witness_SeedLoadsAccumulator : State.reset.Good ∧ lutRead State.reset.lut 0x00#8 = 0#32 ∧
    State.Good { State.reset with lut := zeroTable } ∧ lutRead zeroTable 0x00#8 = 0#32 ∧ ¬ LutOk zeroTable :=
  ⟨rfl, crcTable_ok.1, rfl, by decide, by decide⟩

theorem witness_FoldwFoldsWord : State.reset.Good ∧ LutOk State.reset.lut ∧ State.reset.lut = Config.crcTable ∧
    State.reset.acc = 0xFFFFFFFF#32 := ⟨rfl, crcTable_ok, rfl, rfl⟩

theorem witness_Foldt1FoldsPackedByte : State.reset.Good ∧ State.reset.lut = Config.crcTable ∧
    State.reset.acc = 0xFFFFFFFF#32 ∧ (0x00000100#32 : Word).extractLsb' 8 24 ≠ 0#24 := ⟨rfl, rfl, rfl, by decide⟩

theorem witness_Foldt2FoldsPackedBytes : ∃ s : State, s.Good ∧ s.lut = Config.crcTable ∧ s.acc = 0x1DABE74F#32 ∧
    (0x00010000#32 : Word).extractLsb' 16 16 ≠ 0#16 := ⟨{ State.reset with acc := 0x1DABE74F#32 }, rfl, rfl, rfl, by decide⟩

theorem witness_Foldt3FoldsPackedBytes : State.reset.Good ∧ State.reset.lut = Config.crcTable ∧
    State.reset.acc = 0xFFFFFFFF#32 ∧ (0x01000000#32 : Word).extractLsb' 24 8 ≠ 0#8 := ⟨rfl, rfl, rfl, by decide⟩

theorem witness_LutrdReadsTableEntry : State.reset.Good ∧ LutOk State.reset.lut ∧ State.reset.lut = Config.crcTable ∧
    (0x00000100#32 : Word).extractLsb' 8 24 ≠ 0#24 := ⟨rfl, crcTable_ok, rfl, by decide⟩

theorem witness_CommandsWriteOnlyTheirRegister : ∃ t u, State.reset.Good ∧ exec (.lutrd 0xFF#8) State.reset = .next t ∧
    exec (.foldw 0#32) State.reset = .next u := ⟨_, _, rfl, rfl, rfl⟩

/-- Two states that differ in `LUT_Q` and the command position. -/
theorem witness_NoCommandReadsLutQ : ∃ s t t', State.reset.Good ∧ State.Good s ∧ s.acc = State.reset.acc ∧
    s.lut = State.reset.lut ∧ s.lutQ ≠ State.reset.lutQ ∧ exec (.lutrd 0x01#8) State.reset = .next t ∧
    exec (.lutrd 0x01#8) s = .next t' :=
  ⟨{ State.reset with lutQ := 1#32, cmdIdx := 9 }, _, _, rfl, rfl, rfl, rfl, by decide, rfl, rfl⟩

theorem witness_IdempotentCommands : ∃ t, State.reset.Good ∧ exec (.lutrd 0xFF#8) State.reset = .next t := ⟨_, rfl, rfl⟩

theorem witness_StepRunsDecodedCommand : (offered 0x0304030201#40).Good ∧ (offered 0x0304030201#40).cmdReady = true ∧
    (offered 0x0304030201#40).Offers 0x0304030201#40 [⟨false, false, 0#8, 0#32⟩] ∧
    decode 0x0304030201#40 = .command (.foldw 0x04030201#32) := ⟨rfl, rfl, offered_offers _, by decide⟩

/-- One witness for each reason. -/
theorem witness_ReservedFrameIsRefused : (offered 0x0800000000#40).Good ∧ (offered 0x0800000000#40).cmdReady = true ∧
    (offered 0x0800000000#40).Offers 0x0800000000#40 [⟨false, false, 0#8, 0#32⟩] ∧
    decode 0x0800000000#40 = .refused .reservedOpcode ∧
    (offered 0x0700000100#40).Offers 0x0700000100#40 [⟨false, false, 0#8, 0#32⟩] ∧
    decode 0x0700000100#40 = .refused .nonzeroReservedBits :=
  ⟨rfl, rfl, offered_offers _, by decide, offered_offers _, by decide⟩

theorem witness_RefusedMarkIsNeverCleared : marked.refused = true := rfl

/-- A block that is executing a command and offered a frame when reset comes. -/
theorem witness_ResetValues : ∃ p, (executing [p]).Good ∧ (executing [p]).port = [p] ∧ p.rst = true :=
  ⟨⟨true, true, 0x02#8, 7#32⟩, rfl, rfl, rfl⟩

theorem witness_ResetWinsOverAcceptance : ∃ p q : Pins, (executing [p]).Good ∧ (executing [p]).port = [p] ∧
    p.rst = true ∧ q.rst = true ∧ p ≠ q :=
  ⟨⟨true, true, 0x02#8, 7#32⟩, ⟨true, false, 0x00#8, 0#32⟩, rfl, rfl, rfl, rfl, by decide⟩

theorem witness_IdleBlockHoldsItsState : State.reset.Good ∧ State.reset.cmdReady = true ∧ State.reset.port = [] ∧
    ∃ (s : State) (p : Pins), s.Good ∧ s.cmdReady = true ∧ s.port = [p] ∧ p.rst = false ∧ p.cmdValid = false :=
  ⟨rfl, rfl, rfl, { State.reset with port := [⟨false, false, 0x03#8, 1#32⟩] }, ⟨false, false, 0x03#8, 1#32⟩,
    rfl, rfl, rfl, rfl, rfl⟩

theorem witness_BusyBlockAcceptsNothing : ∃ p q : Pins, (executing [p, q]).Good ∧ (executing [p, q]).cmdReady = false ∧
    p.rst = false ∧ p.cmdValid = true ∧ (executing [q]).cmdReady = false ∧ q.rst = false ∧ q.cmdValid = false :=
  ⟨⟨false, true, 0x01#8, 0#32⟩, ⟨false, false, 0x00#8, 0#32⟩, rfl, rfl, rfl, rfl, rfl, rfl, rfl⟩

theorem witness_OutputsValidWhenReady : State.reset.Good ∧ State.reset.cmdReady = true ∧ (executing []).Good ∧
    (executing []).cmdReady = false := ⟨rfl, rfl, rfl, rfl⟩

theorem witness_ScriptRunsCommandsInOrder : ∃ s : State, s.Good ∧ s.cmdReady = true ∧
    s.port = script [.init, .foldw 0#32] ++ [⟨true, false, 0#8, 0#32⟩] :=
  ⟨{ State.reset with port := script [.init, .foldw 0#32] ++ [⟨true, false, 0#8, 0#32⟩] }, rfl, rfl, rfl⟩

theorem witness_AcceptedCommandCompletes : ∃ t, (offered 0x0207000000#40).Good ∧
    (offered 0x0207000000#40).cmdReady = true ∧
    (offered 0x0207000000#40).Offers 0x0207000000#40 [⟨false, false, 0#8, 0#32⟩] ∧
    (∀ p ∈ [(⟨false, false, 0#8, 0#32⟩ : Pins)], p.rst = false) ∧
    decode 0x0207000000#40 = .command (.seed 0x07000000#32) ∧
    exec (.seed 0x07000000#32) (offered 0x0207000000#40) = .next t :=
  ⟨_, rfl, rfl, offered_offers _, by simp, by decide, rfl⟩

/-- An edge that accepts a frame, and two that do not: none offered, and a block that is not ready. -/
theorem witness_CommandPositionCountsAcceptances : (offered 0x0100000000#40).cmdReady = true ∧
    (offered 0x0100000000#40).Offers 0x0100000000#40 [⟨false, false, 0#8, 0#32⟩] ∧
    (¬ ∃ f rest, State.reset.cmdReady = true ∧ State.reset.Offers f rest) ∧
    (¬ ∃ f rest, (executing [offer 0x0100000000#40]).cmdReady = true ∧
      (executing [offer 0x0100000000#40]).Offers f rest) := by
  refine ⟨rfl, offered_offers _, ?_, ?_⟩
  · rintro ⟨f, rest, -, p, hp, -⟩
    cases hp
  · rintro ⟨f, rest, h, -⟩
    cases h

theorem witness_LutNeverChanges : ∃ t, exec (.lutrd 0x01#8) State.reset = .next t := ⟨_, rfl⟩

theorem witness_StepKeepsInvariant : ∃ t, (offered 0x0304030201#40).Inv ∧ step (offered 0x0304030201#40) = .next t :=
  ⟨_, ⟨crcTable_ok, rfl⟩, rfl⟩

theorem witness_ConformingHostIsNeverRefused : (offered 0x0304030201#40).Safe := ⟨rfl, by decide⟩

/-- Two safe runs that differ in `LUT_Q` and the command position. -/
theorem witness_AccumulatorIsDeterminedByCommands : ∃ s : State, (offered 0x0304030201#40).Safe ∧ s.Safe ∧
    (offered 0x0304030201#40).acc = s.acc ∧ (offered 0x0304030201#40).lut = s.lut ∧
    (offered 0x0304030201#40).busy = s.busy ∧ (offered 0x0304030201#40).port = s.port ∧
    (offered 0x0304030201#40).lutQ ≠ s.lutQ :=
  ⟨{ offered 0x0304030201#40 with lutQ := 1#32, cmdIdx := 4 }, ⟨rfl, by decide⟩, ⟨rfl, by decide⟩, rfl, rfl, rfl, rfl,
    by decide⟩

theorem witness_RunResultIsTheOutputs : State.reset.Good ∧ State.reset.atEnd = true ∧ marked.refused = true ∧
    (executing []).atEnd = false := by decide

theorem witness_UpdateDependsOnXorOnly : lutRead Config.crcTable 0x00#8 = 0#32 ∧ lutRead zeroTable 0x00#8 = 0#32 :=
  ⟨crcTable_ok.1, by decide⟩

/-- A state that a run is in with a table of CRC_TABLE and a frame offered. -/
theorem witness_GivenTableEntries : LutOk (offered 0x07000000FF#40).lut ∧
    (offered 0x07000000FF#40).Offers 0x07000000FF#40 [⟨false, false, 0#8, 0#32⟩] := ⟨crcTable_ok, offered_offers _⟩

theorem witness_TailFoldIsOneWordFold : State.reset.Good := rfl

/-- The premise of injectivity is met by equal entries only, which R59 says are one entry. -/
theorem witness_DefaultTableIsLinear : lutRead Config.crcTable 0x00#8 = 0#32 ∧
    lutRead Config.crcTable 0x01#8 ≠ lutRead Config.crcTable 0x80#8 := by decide

theorem witness_FoldIsLinearBijection :
    update Config.crcTable 0xFFFFFFFF#32 0x04030201#32 = update Config.crcTable 0xFFFFFFFF#32 0x04030201#32 := rfl

theorem witness_ScriptComputesDigest : ∃ s s' : State, s.Good ∧ s.cmdReady = true ∧
    s.port = script (expandCompute [0x01#8]) ++ [] ∧ s'.Good ∧ s'.cmdReady = true ∧
    s'.port = script (expandResume 0#32 [0x01#8, 0x02#8]) ++ [offer 0#40] :=
  ⟨{ State.reset with port := script (expandCompute [0x01#8]) ++ [] },
    { State.reset with port := script (expandResume 0#32 [0x01#8, 0x02#8]) ++ [offer 0#40] }, rfl, rfl, rfl, rfl, rfl, rfl⟩

theorem witness_ChainingAtWordBoundary : [0x01#8, 0x02#8, 0x03#8, 0x04#8].length % 4 = 0 := rfl

theorem witness_ChunkingKeepsDigest :
    ∀ c ∈ [[0x01#8, 0x02#8, 0x03#8, 0x04#8], []], List.length c % 4 = 0 := by decide

theorem witness_TailCollisions : pack1 0x80#8 = pack1 0x80#8 ∧ pack2 0x00#8 0xFF#8 = pack2 0x00#8 0xFF#8 ∧
    pack3 0x01#8 0x02#8 0x03#8 = pack3 0x01#8 0x02#8 0x03#8 ∧ ([] : List Byte).length % 4 = 0 := ⟨rfl, rfl, rfl, rfl⟩

theorem witness_TailsOfOneLengthNeverCollide : [0x01#8, 0x02#8, 0x03#8, 0x04#8].length % 4 = 0 ∧
    [0x05#8].length = [0x05#8].length ∧ [0x05#8].length < 4 ∧
    computeFrom Config.crcTable 0#32 ([0x01#8, 0x02#8, 0x03#8, 0x04#8] ++ [0x05#8]) =
      computeFrom Config.crcTable 0#32 ([0x01#8, 0x02#8, 0x03#8, 0x04#8] ++ [0x05#8]) := ⟨rfl, rfl, by decide, rfl⟩

theorem witness_ResetStandsForInit : ∃ (s t : State) (p : Pins), s.Good ∧ s.port = [p] ∧ p.rst = true ∧
    step s = .next t := ⟨executing [⟨true, false, 0#8, 0#32⟩], _, ⟨true, false, 0#8, 0#32⟩, rfl, rfl, rfl, rfl⟩

/-- The smallest number of instances, and two of them that share a table. -/
theorem witness_InstancesAreIndependent : (0 : Nat) ≠ 1 ∧ (1 : Nat) ≤ 1 ∧
    Platform.sharesLut Config.crcTable ⟨[State.reset, executing []], by decide⟩ := by
  refine ⟨by decide, by decide, ?_⟩
  intro s hs
  simp only [List.mem_cons, List.not_mem_nil, or_false] at hs
  rcases hs with rfl | rfl <;> rfl

theorem witness_AssemblerChecksOperands : lineWellFormed ⟨.foldt3, [255, 0, 255]⟩ = true ∧
    arityOk .foldt1 [256].length = true ∧ operandsFit ⟨.foldt1, [256]⟩ = false ∧ 2 ^ 32 - 1 < 2 ^ 32 ∧ 255 < 2 ^ 8 := by decide

theorem witness_PseudoCommandsExpand : (255 : Nat) < 2 ^ 8 ∧ (0 : Nat) < 2 ^ 8 := by decide

end Sys2Proof.Tests
end

section
/-! PROOFS. What a command does to the state, said once. A command writes `ACC` and `LUT_Q` from its operand, `ACC` and
the table, and advances the command position (spec/10_state.md R15 to R20); nothing else is read or written. -/

namespace Sys2Proof.Machine

/-- What a command leaves in `ACC`, from the table and the `ACC` before it (R16, R17). -/
def accAfter (i : Instr) (t : Lut) (acc : Word) : Word :=
  match i with
  | .nop => acc
  | .init => Config.initValue
  | .seed v => v
  | .foldw w => update t acc w
  | .foldt1 b0 => update t acc (pack1 b0)
  | .foldt2 b0 b1 => update t acc (pack2 b0 b1)
  | .foldt3 b0 b1 b2 => update t acc (pack3 b0 b1 b2)
  | .lutrd _ => acc

/-- What a command leaves in `LUT_Q`, from the table and the `LUT_Q` before it (R18). -/
def lutQAfter (i : Instr) (t : Lut) (lutQ : Word) : Word :=
  match i with
  | .lutrd k => lutRead t k
  | _ => lutQ

/-- The state a command leaves: the two result registers and the command position, and no other field. -/
def State.execute (s : State) (i : Instr) : State :=
  { s with acc := accAfter i s.lut s.acc, lutQ := lutQAfter i s.lut s.lutQ, cmdIdx := s.cmdIdx + 1 }

@[simp] theorem State.execute_acc (s : State) (i : Instr) : (s.execute i).acc = accAfter i s.lut s.acc := rfl
@[simp] theorem State.execute_lutQ (s : State) (i : Instr) : (s.execute i).lutQ = lutQAfter i s.lut s.lutQ := rfl
@[simp] theorem State.execute_lut (s : State) (i : Instr) : (s.execute i).lut = s.lut := rfl
@[simp] theorem State.execute_busy (s : State) (i : Instr) : (s.execute i).busy = s.busy := rfl
@[simp] theorem State.execute_cmdIdx (s : State) (i : Instr) : (s.execute i).cmdIdx = s.cmdIdx + 1 := rfl
@[simp] theorem State.execute_refused (s : State) (i : Instr) : (s.execute i).refused = s.refused := rfl
@[simp] theorem State.execute_port (s : State) (i : Instr) : (s.execute i).port = s.port := rfl
@[simp] theorem State.execute_draws (s : State) (i : Instr) : (s.execute i).draws = s.draws := rfl

/-- Every command answers a next state on all operands in every state (R86), and this is the state. -/
theorem exec_eq_next_execute (i : Instr) (s : State) : exec i s = .next (s.execute i) := by
  cases i <;> rfl

/-- The inversion of `exec`: its answer is the executed state. -/
theorem exec_eq_next_iff (i : Instr) (s t : State) : exec i s = .next t ↔ t = s.execute i := by
  rw [exec_eq_next_execute, Host.Outcome.next.injEq, eq_comm]

/-- Only LUTRD writes `LUT_Q` (R18). -/
theorem lutQAfter_of_ne_lutrd (i : Instr) (t : Lut) (q : Word) (h : ∀ k, i ≠ .lutrd k) : lutQAfter i t q = q := by
  cases i with
  | lutrd k => exact absurd rfl (h k)
  | _ => rfl

end Sys2Proof.Machine
end

section
/-! PROOFS. What one edge of a run does, refused frames included: an equation per case, all cases together, and the
field-wise facts that follow from them. -/

namespace Sys2Proof.Machine

/-- Settling neither reads nor writes the handshake (R88). -/
theorem State.settle_with_busy (s : State) (b : Bool) :
    ({ s.settle with busy := b } : State) = State.settle { s with busy := b } := by
  unfold State.settle
  split <;> rfl

/-- An edge of a host that drives nothing more. -/
theorem advanceAt_nil (c : Bool) (s : State) (h : s.port = []) :
    advanceAt c s = { s with busy := s.busy && !c } :=
  advanceAt_next c s _ (clockEdge_nil c s h)

/-- An edge at which reset is active (R91). -/
theorem advanceAt_rst (c : Bool) (s : State) (p : Pins) (rest : List Pins) (h : s.port = p :: rest)
    (hr : p.rst = true) : advanceAt c s = State.resetEvent { s with port := rest } :=
  advanceAt_next c s _ (clockEdge_rst c s p rest h hr)

/-- An edge while a command is in execution: an offered command stays offered (R41). -/
theorem advanceAt_busy (c : Bool) (s : State) (p : Pins) (rest : List Pins) (h : s.port = p :: rest)
    (hr : p.rst = false) (hb : s.busy = true) :
    advanceAt c s = { s with busy := !c, port := if p.cmdValid then p :: rest else rest } :=
  advanceAt_next c s _ (clockEdge_busy c s p rest h hr hb)

/-- An edge of a ready block at which nothing is offered. -/
theorem advanceAt_idle (c : Bool) (s : State) (p : Pins) (rest : List Pins) (h : s.port = p :: rest)
    (hr : p.rst = false) (hb : s.busy = false) (hv : p.cmdValid = false) :
    advanceAt c s = { s with port := rest } :=
  advanceAt_next c s _ (clockEdge_idle c s p rest h hr hb hv)

/-- An edge at which a command is accepted: the command is executed, and its answer settled (R41, R88). -/
theorem advanceAt_command (c : Bool) (s : State) (p : Pins) (rest : List Pins) (i : Instr) (h : s.port = p :: rest)
    (hr : p.rst = false) (hb : s.busy = false) (hv : p.cmdValid = true) (hd : decode p.frame = .command i) :
    advanceAt c s = (State.execute { s with port := rest, busy := !c } i).settle := by
  apply advanceAt_next
  rw [clockEdge_offer c s p rest h hr hb hv, accept_command c p.frame _ i hd, exec_eq_next_execute,
    settleOutcome_next]

/-- An edge at which a frame without meaning is accepted (R88). -/
theorem advanceAt_refusedFrame (c : Bool) (s : State) (p : Pins) (rest : List Pins) (r : RefusalReason)
    (h : s.port = p :: rest) (hr : p.rst = false) (hb : s.busy = false) (hv : p.cmdValid = true)
    (hd : decode p.frame = .refused r) : advanceAt c s = afterRefusal c s := by
  apply advanceAt_refused (r := .undefinedFrame r)
  rw [clockEdge_offer c s p rest h hr hb hv, accept_refused c p.frame _ r hd]

/-- Everything one edge of a run can do: the six cases above, each with its guard. -/
theorem advanceAt_cases (c : Bool) (s : State) :
    (s.port = [] ∧ advanceAt c s = { s with busy := s.busy && !c }) ∨
    ∃ p rest, s.port = p :: rest ∧
      ((p.rst = true ∧ advanceAt c s = State.resetEvent { s with port := rest }) ∨
       (p.rst = false ∧ s.busy = true ∧
          advanceAt c s = { s with busy := !c, port := if p.cmdValid then p :: rest else rest }) ∨
       (p.rst = false ∧ s.busy = false ∧ p.cmdValid = false ∧ advanceAt c s = { s with port := rest }) ∨
       (p.rst = false ∧ s.busy = false ∧ p.cmdValid = true ∧ ∃ i, decode p.frame = .command i ∧
          advanceAt c s = (State.execute { s with port := rest, busy := !c } i).settle) ∨
       (p.rst = false ∧ s.busy = false ∧ p.cmdValid = true ∧ ∃ r, decode p.frame = .refused r ∧
          advanceAt c s = afterRefusal c s)) := by
  obtain ⟨hp, -⟩ | ⟨p, rest, hp, hedge⟩ := clockEdge_cases c s
  · exact .inl ⟨hp, advanceAt_nil c s hp⟩
  · refine .inr ⟨p, rest, hp, ?_⟩
    obtain ⟨hr, -⟩ | ⟨hr, hb, -⟩ | ⟨hr, hb, hv, -⟩ | ⟨hr, hb, hv, -⟩ := hedge
    · exact .inl ⟨hr, advanceAt_rst c s p rest hp hr⟩
    · exact .inr (.inl ⟨hr, hb, advanceAt_busy c s p rest hp hr hb⟩)
    · cases hd : decode p.frame with
      | command i =>
        exact .inr (.inr (.inr (.inl ⟨hr, hb, hv, i, rfl, advanceAt_command c s p rest i hp hr hb hv hd⟩)))
      | refused r =>
        exact .inr (.inr (.inr (.inr ⟨hr, hb, hv, r, rfl, advanceAt_refusedFrame c s p rest r hp hr hb hv hd⟩)))
    · exact .inr (.inr (.inl ⟨hr, hb, hv, advanceAt_idle c s p rest hp hr hb hv⟩))

/-- No edge changes the LUT (R19). -/
@[simp] theorem advanceAt_lut (c : Bool) (s : State) : (advanceAt c s).lut = s.lut := by
  obtain ⟨-, h⟩ | ⟨p, rest, -, ⟨-, h⟩ | ⟨-, -, h⟩ | ⟨-, -, -, h⟩ | ⟨-, -, -, i, -, h⟩ | ⟨-, -, -, r, -, h⟩⟩ :=
    advanceAt_cases c s <;> simp [h]

/-- An edge at which the host's frame is accepted, command or not, advances the command position by one (R20). -/
theorem advanceAt_cmdIdx_of_offer (c : Bool) (s : State) (p : Pins) (rest : List Pins) (h : s.port = p :: rest)
    (hr : p.rst = false) (hb : s.busy = false) (hv : p.cmdValid = true) :
    (advanceAt c s).cmdIdx = s.cmdIdx + 1 := by
  cases hd : decode p.frame with
  | command i => simp [advanceAt_command c s p rest i h hr hb hv hd]
  | refused r => simp [advanceAt_refusedFrame c s p rest r h hr hb hv hd]

/-- At the command level the block is idle after every step of a run when it was before (R23). -/
theorem advance_busy (s : State) (hb : s.busy = false) : (advance s).busy = false := by
  unfold advance
  obtain ⟨-, h⟩ | ⟨p, rest, -, ⟨-, h⟩ | ⟨-, hb', -⟩ | ⟨-, -, -, h⟩ | ⟨-, -, -, i, -, h⟩ | ⟨-, -, -, r, -, h⟩⟩ :=
    advanceAt_cases true s
  · simp [h]
  · simp [h]
  · rw [hb] at hb'
    cases hb'
  · simp [h, hb]
  · simp [h]
  · simp [h]

end Sys2Proof.Machine
end

section
/-! PROOFS. The clocked block refines the command-level machine (spec/10_state.md R23, spec/43_sequence.md R82,
spec/70_reset_and_hazards.md R111): the state with `busy` forgotten is the simulation relation, and each edge is matched
by no step or by one. -/

namespace Sys2Proof.Machine

/-- The simulation step. No command-level step matches an edge that only waits (the host drives nothing, or holds a frame
while the block is busy); one step matches every other edge. -/
theorem advanceAt_refines (c : Bool) (s : State) :
    ({ advanceAt c s with busy := false } : State) = { s with busy := false } ∨
    ({ advanceAt c s with busy := false } : State) = advance { s with busy := false } := by
  unfold advance
  obtain ⟨-, h⟩ | ⟨p, rest, hp,
      ⟨hr, h⟩ | ⟨hr, -, h⟩ | ⟨hr, -, hv, h⟩ | ⟨hr, -, hv, i, hd, h⟩ | ⟨hr, -, hv, r, hd, h⟩⟩ := advanceAt_cases c s
  · left
    rw [h]
  · right
    rw [h, advanceAt_rst true { s with busy := false } p rest hp hr]
    exact State.settle_with_busy _ false
  · cases hv : p.cmdValid with
    | true =>
      left
      rw [h, hv, if_pos rfl, ← hp]
    | false =>
      right
      rw [h, hv, advanceAt_idle true { s with busy := false } p rest hp hr rfl hv]
      rfl
  · right
    rw [h, advanceAt_idle true { s with busy := false } p rest hp hr rfl hv]
  · right
    rw [h, advanceAt_command true { s with busy := false } p rest i hp hr rfl hv hd]
    exact State.settle_with_busy _ false
  · right
    rw [h, advanceAt_refusedFrame true { s with busy := false } p rest r hp hr rfl hv hd]
    rfl

/-- The simulation over a whole run: at most one command-level step per edge. -/
theorem clockedRun_refines_run (choices : List Bool) (s : State) :
    ∃ n, n ≤ choices.length ∧ { clockedRun choices s with busy := false } = run n { s with busy := false } := by
  induction choices generalizing s with
  | nil => exact ⟨0, le_rfl, rfl⟩
  | cons c cs ih =>
    obtain ⟨n, hn, hrun⟩ := ih (advanceAt c s)
    obtain hstay | hstep := advanceAt_refines c s
    · refine ⟨n, Nat.le_succ_of_le hn, ?_⟩
      rw [clockedRun, hrun, hstay]
    · refine ⟨n + 1, Nat.succ_le_succ hn, ?_⟩
      rw [clockedRun, hrun, hstep, run]

/-- Where every command completes at its accepting edge, the clocked run is the command-level run. -/
theorem clockedRun_replicate_true (n : Nat) (s : State) : clockedRun (List.replicate n true) s = run n s := by
  induction n generalizing s with
  | zero => rfl
  | succ n ih => exact ih (advance s)

/-- Settles O29, by a simulation in which an edge is matched by no step or by one. -/
theorem clockedRunRefinesCommandRun : Obligations.ClockedRunRefinesCommandRun :=
  ⟨clockedRun_refines_run, clockedRun_replicate_true⟩

end Sys2Proof.Machine
end

section
/-! PROOFS. The invariants of the state: the table, the idle block between steps, and the command position. -/

namespace Sys2Proof.Machine

/-- No run of edges changes the LUT (R19). -/
@[simp] theorem clockedRun_lut (choices : List Bool) (s : State) : (clockedRun choices s).lut = s.lut := by
  induction choices generalizing s with
  | nil => rfl
  | cons c cs ih => rw [clockedRun, ih, advanceAt_lut]

/-- One step of a run keeps the invariant, refused or not. -/
theorem advance_inv (s : State) (h : s.Inv) : (advance s).Inv := by
  obtain ⟨hlut, hbusy⟩ := h
  refine ⟨?_, advance_busy s hbusy⟩
  rw [advance, advanceAt_lut]
  exact hlut

/-- Any number of steps keep the invariant. -/
theorem run_inv (n : Nat) (s : State) (h : s.Inv) : (run n s).Inv := by
  induction n generalizing s with
  | zero => exact h
  | succ n ih => exact ih (advance s) (advance_inv s h)

/-- Settles O33: a step that answers a next state is a step of the run, which keeps the table and the idle block. -/
theorem stepKeepsInvariant : Obligations.StepKeepsInvariant := by
  refine ⟨?_, advance_inv, run_inv⟩
  intro s t hinv hstep
  have hadv : advance s = t := advanceAt_next true s t hstep
  exact hadv ▸ advance_inv s hinv

/-- Settles O31. -/
theorem lutNeverChanges : Obligations.LutNeverChanges := by
  refine ⟨?_, advanceAt_lut, clockedRun_lut⟩
  intro i s t h
  rw [(exec_eq_next_iff i s t).mp h, State.execute_lut]

/-- Settles O30: of the six cases of an edge, only the two that accept a frame advance the position. -/
theorem commandPositionCountsAcceptances : Obligations.CommandPositionCountsAcceptances := by
  refine ⟨rfl, ?_, ?_⟩
  · rintro c s f rest hready ⟨p, hp, hr, hv, -⟩
    have hb : s.busy = false := by simpa [State.cmdReady] using hready
    exact advanceAt_cmdIdx_of_offer c s p rest hp hr hb hv
  · intro c s hnone
    have hno_offer : ∀ p rest, s.port = p :: rest → p.rst = false → s.busy = false → p.cmdValid = true → False :=
      fun p rest hp hr hb hv => hnone ⟨p.frame, rest, by simp [State.cmdReady, hb], p, hp, hr, hv, rfl⟩
    obtain ⟨-, h⟩ | ⟨p, rest, hp,
        ⟨-, h⟩ | ⟨-, -, h⟩ | ⟨-, -, -, h⟩ | ⟨hr, hb, hv, -⟩ | ⟨hr, hb, hv, -⟩⟩ := advanceAt_cases c s
    · rw [h]
    · rw [h, State.resetEvent_cmdIdx]
    · rw [h]
    · rw [h]
    · exact (hno_offer p rest hp hr hb hv).elim
    · exact (hno_offer p rest hp hr hb hv).elim

/-- Settles O32: the two given entries of the table the block is built with are evaluated. -/
theorem invariantHoldsAtReset : Obligations.InvariantHoldsAtReset := by
  have htable : LutOk Config.crcTable := by decide
  exact ⟨htable, rfl⟩

/-- Settles O22. -/
theorem resetValues : Obligations.ResetValues := by
  refine ⟨⟨rfl, rfl, rfl, rfl, rfl, rfl⟩, ?_, ?_⟩
  · intro c s p rest hgood hp hr
    rw [clockEdge_rst c s p rest hp hr, State.resetEvent_of_good { s with port := rest } hgood]
    rfl
  · intro c s p rest hp hr
    simp [advanceAt_rst c s p rest hp hr]

end Sys2Proof.Machine
end

section
/-! PROOFS. What a command writes, and what its result depends on. -/

namespace Sys2Proof.Machine

/-- Settles O16: the executed state names every field a command can write. -/
theorem commandsWriteOnlyTheirRegister : Obligations.CommandsWriteOnlyTheirRegister := by
  intro i s t _ h
  obtain rfl := (exec_eq_next_iff i s t).mp h
  refine ⟨rfl, rfl, rfl, rfl, rfl, rfl, lutQAfter_of_ne_lutrd i s.lut s.lutQ, ?_⟩
  rintro (rfl | ⟨k, rfl⟩) <;> rfl

/-- Settles O17: what a command leaves in `ACC` is a function of the table and `ACC`, and what LUTRD leaves in `LUT_Q`
of the table alone. -/
theorem noCommandReadsLutQ : Obligations.NoCommandReadsLutQ := by
  intro i s s' t t' _ _ hacc hlut h h'
  obtain rfl := (exec_eq_next_iff i s t).mp h
  obtain rfl := (exec_eq_next_iff i s' t').mp h'
  constructor
  · rw [State.execute_acc, State.execute_acc, hacc, hlut]
  · rintro ⟨k, rfl⟩
    exact congrArg (lutRead · k) hlut

end Sys2Proof.Machine
end

section
/-! PROOFS. Data words and frames: the little-endian word of four bytes and its lanes (spec/20_memory.md R27), and the
frame of a command read back (spec/30_encoding.md R44, R48). -/

namespace Sys2Proof.Machine

/-! The decoder's equation for each opcode that stands for a command (R48), over any data field. -/

theorem decode_op_nop (d : Word) : decode (mkFrame 0x00#8 d) = ifReservedZero d .nop := by
  simp [decode]

theorem decode_op_init (d : Word) : decode (mkFrame 0x01#8 d) = ifReservedZero d .init := by
  simp [decode]

theorem decode_op_seed (d : Word) : decode (mkFrame 0x02#8 d) = .command (.seed d) := by
  simp [decode]

theorem decode_op_foldw (d : Word) : decode (mkFrame 0x03#8 d) = .command (.foldw d) := by
  simp [decode]

theorem decode_op_foldt1 (d : Word) :
    decode (mkFrame 0x04#8 d) = ifReservedZero (d.extractLsb' 8 24) (.foldt1 (lane 0 d)) := by
  simp [decode]

theorem decode_op_foldt2 (d : Word) :
    decode (mkFrame 0x05#8 d) = ifReservedZero (d.extractLsb' 16 16) (.foldt2 (lane 0 d) (lane 1 d)) := by
  simp [decode]

theorem decode_op_foldt3 (d : Word) :
    decode (mkFrame 0x06#8 d) =
      ifReservedZero (d.extractLsb' 24 8) (.foldt3 (lane 0 d) (lane 1 d) (lane 2 d)) := by
  simp [decode]

theorem decode_op_lutrd (d : Word) :
    decode (mkFrame 0x07#8 d) = ifReservedZero (d.extractLsb' 8 24) (.lutrd (lane 0 d)) := by
  simp [decode]

/-- A frame whose must-be-zero bits are all 0 is its command (R46). -/
theorem ifReservedZero_zero (n : Nat) (i : Instr) : ifReservedZero 0#n i = .command i :=
  if_pos rfl

/-! The lanes of a data word that is put together from its upper bits and its low bytes. -/

theorem lane_append_one (hi : BitVec 24) (b0 : Byte) : lane 0 (hi ++ b0) = b0 := by
  simp [lane, BitVec.extractLsb'_append_eq_of_add_le (v := 24) (w := 8)]

theorem lane_append_two (hi : BitVec 16) (b1 b0 : Byte) :
    lane 0 (hi ++ (b1 ++ b0)) = b0 ∧ lane 1 (hi ++ (b1 ++ b0)) = b1 := by
  simp [lane, BitVec.extractLsb'_append_eq_of_add_le (v := 16) (w := 16),
    BitVec.extractLsb'_append_eq_of_add_le (v := 8) (w := 8), BitVec.extractLsb'_append_eq_of_le (v := 8) (w := 8)]

theorem lane_append_four (b3 b2 b1 b0 : Byte) :
    lane 0 (b3 ++ (b2 ++ (b1 ++ b0))) = b0 ∧ lane 1 (b3 ++ (b2 ++ (b1 ++ b0))) = b1 ∧
    lane 2 (b3 ++ (b2 ++ (b1 ++ b0))) = b2 ∧ lane 3 (b3 ++ (b2 ++ (b1 ++ b0))) = b3 := by
  simp [lane, BitVec.extractLsb'_append_eq_of_add_le (v := 8) (w := 24),
    BitVec.extractLsb'_append_eq_of_le (v := 8) (w := 24), BitVec.extractLsb'_append_eq_of_add_le (v := 8) (w := 16),
    BitVec.extractLsb'_append_eq_of_le (v := 8) (w := 16), BitVec.extractLsb'_append_eq_of_add_le (v := 8) (w := 8),
    BitVec.extractLsb'_append_eq_of_le (v := 8) (w := 8)]

/-- The decoder reads the frame of a command back as the command: its must-be-zero bits are 0, and every operand stands
in its own lane (R44, R45, R48). -/
theorem decode_encode (i : Instr) : decode (encode i) = .command i := by
  cases i with
  | nop => rw [encode, decode_op_nop, ifReservedZero_zero]
  | init => rw [encode, decode_op_init, ifReservedZero_zero]
  | seed s => rw [encode, decode_op_seed]
  | foldw w => rw [encode, decode_op_foldw]
  | foldt1 b0 =>
    rw [encode, decode_op_foldt1, BitVec.extractLsb'_append_eq_left, ifReservedZero_zero, lane_append_one]
  | foldt2 b0 b1 =>
    obtain ⟨h0, h1⟩ := lane_append_two 0#16 b1 b0
    rw [encode, decode_op_foldt2, BitVec.extractLsb'_append_eq_left, ifReservedZero_zero, h0, h1]
  | foldt3 b0 b1 b2 =>
    obtain ⟨h0, h1, h2, -⟩ := lane_append_four 0#8 b2 b1 b0
    rw [encode, decode_op_foldt3, BitVec.extractLsb'_append_eq_left, ifReservedZero_zero, h0, h1, h2]
  | lutrd k =>
    rw [encode, decode_op_lutrd, BitVec.extractLsb'_append_eq_left, ifReservedZero_zero, lane_append_one]

/-- The shifts of R27 put the four bytes side by side, byte 0 least significant. -/
theorem leWord_eq_append (b0 b1 b2 b3 : Byte) : leWord b0 b1 b2 b3 = b3 ++ (b2 ++ (b1 ++ b0)) := by
  unfold leWord zext32
  apply BitVec.eq_of_getLsbD_eq
  intro i hi
  simp only [BitVec.getLsbD_or, BitVec.getLsbD_shiftLeft, BitVec.getLsbD_setWidth, BitVec.getLsbD_append]
  -- bit `i` lies in one byte only, and every other byte's bit is past its width or below its shift
  grind

/-- A word is its lanes side by side. -/
theorem append_lanes (w : Word) : lane 3 w ++ (lane 2 w ++ (lane 1 w ++ lane 0 w)) = w := by
  have h10 : lane 1 w ++ lane 0 w = w.extractLsb' 0 16 :=
    BitVec.extractLsb'_append_extractLsb'_eq_extractLsb' rfl
  have h210 : lane 2 w ++ w.extractLsb' 0 16 = w.extractLsb' 0 24 :=
    BitVec.extractLsb'_append_extractLsb'_eq_extractLsb' rfl
  have h3210 : lane 3 w ++ w.extractLsb' 0 24 = w.extractLsb' 0 32 :=
    BitVec.extractLsb'_append_extractLsb'_eq_extractLsb' rfl
  rw [h10, h210, h3210, BitVec.extractLsb'_eq_self]

/-- Settles O39: the little-endian word is the concatenation of its bytes, whose lanes are the bytes. -/
theorem wordIsLittleEndian : Obligations.WordIsLittleEndian := by
  refine ⟨leWord_eq_append, ?_, ?_, ?_⟩
  · intro b0 b1 b2 b3
    rw [leWord_eq_append]
    exact lane_append_four b3 b2 b1 b0
  · intro b0 b1 b2 b3
    exact decode_op_foldw (leWord b0 b1 b2 b3)
  · intro w
    rw [leWord_eq_append, append_lanes]

end Sys2Proof.Machine
end

section
/-! PROOFS. The order of commands (spec/20_memory.md R33, R36): what a ready block in a run without refusal does with
an offered command, a whole list of them, and the same command twice. -/

namespace Sys2Proof.Machine

/-- An edge at which a ready block accepts a command, in a run without refusal: the answer is the command's meaning. -/
theorem clockEdge_command_of_good (c : Bool) (s : State) (p : Pins) (rest : List Pins) (i : Instr) (hgood : s.Good)
    (h : s.port = p :: rest) (hr : p.rst = false) (hb : s.busy = false) (hv : p.cmdValid = true)
    (hd : decode p.frame = .command i) :
    clockEdge c s = exec i { s with port := rest, busy := !c } := by
  rw [clockEdge_offer c s p rest h hr hb hv, accept_command c p.frame _ i hd, exec_eq_next_execute, settleOutcome_next]
  exact congrArg _ (State.settle_of_good _ hgood)

/-- The step of a ready block that is offered the frame of a command. -/
theorem step_offer_encode (s : State) (i : Instr) (rest : List Pins) (hgood : s.Good) (hb : s.busy = false)
    (hp : s.port = offer (encode i) :: rest) : step s = .next (State.execute { s with port := rest } i) := by
  have hd : decode (offer (encode i)).frame = .command i := by rw [offer_frame, decode_encode]
  rw [step, clockEdge_command_of_good true s (offer (encode i)) rest i hgood hp rfl hb rfl hd, exec_eq_next_execute,
    Bool.not_true, ← hb]

/-- A run whose first step answers a next state goes on from that state. -/
theorem run_of_step_next (M : Host.Core) (n : Nat) (s t : M.State) (h : M.step s = .next t) :
    M.run (n + 1) s = M.run n t := by
  rw [Host.Core.run, h]

/-- The commands of a script run in order, each on the state the one before it left (R36). -/
theorem run_script (is : List Instr) (rest : List Pins) (s : State) (hgood : s.Good) (hb : s.busy = false)
    (hp : s.port = script is ++ rest) :
    Host.Core.run core is.length s = execAll is { s with port := rest } := by
  induction is generalizing s with
  | nil =>
    have hport : s.port = rest := hp
    rw [← hport]
    rfl
  | cons i is ih =>
    have hstep : step s = .next (State.execute { s with port := script is ++ rest } i) :=
      step_offer_encode s i (script is ++ rest) hgood hb hp
    have hhead : Host.Core.run core (is.length + 1) s =
        Host.Core.run core is.length (State.execute { s with port := script is ++ rest } i) :=
      run_of_step_next core is.length s _ hstep
    have htail := ih (State.execute { s with port := script is ++ rest } i) hgood hb rfl
    rw [List.length_cons, hhead, htail, execAll, exec_eq_next_execute]
    rfl

/-- Settles O27, by induction on the list of commands. -/
theorem scriptRunsCommandsInOrder : Obligations.ScriptRunsCommandsInOrder := by
  intro is rest s hgood hready hp
  exact run_script is rest s hgood (by simpa [State.cmdReady] using hready) hp

/-- Settles O18: the four commands write what does not depend on the registers they write. -/
theorem idempotentCommands : Obligations.IdempotentCommands := by
  intro i s t _ hi h
  obtain rfl := (exec_eq_next_iff i s t).mp h
  rw [exec_eq_next_execute]
  obtain rfl | rfl | ⟨v, rfl⟩ | ⟨k, rfl⟩ := hi <;> rfl

end Sys2Proof.Machine
end

section
/-! PROOFS. From acceptance to completion (spec/20_memory.md R38, spec/30_encoding.md R41): while the host does not
reset, a block that accepted a command only waits, and the command's writes stand until its outputs show them. -/

namespace Sys2Proof.Machine

/-- A clocked run is cut anywhere. -/
theorem clockedRun_append (cs cs' : List Bool) (s : State) :
    clockedRun (cs ++ cs') s = clockedRun cs' (clockedRun cs s) := by
  induction cs generalizing s with
  | nil => rfl
  | cons c cs ih => exact ih (advanceAt c s)

/-- An edge of a busy block that is not reset changes the handshake and the host's input only, and the host drives no
new reset. -/
theorem advanceAt_waiting (c : Bool) (s : State) (hb : s.busy = true) (hrst : ∀ p ∈ s.port, p.rst = false) :
    ∃ ps : List Pins, (∀ p ∈ ps, p.rst = false) ∧ advanceAt c s = { s with busy := !c, port := ps } := by
  cases hp : s.port with
  | nil =>
    refine ⟨[], by simp, ?_⟩
    rw [advanceAt_nil c s hp, hb, Bool.true_and, ← hp]
  | cons p rest =>
    rw [hp] at hrst
    refine ⟨_, ?_, advanceAt_busy c s p rest hp (hrst p List.mem_cons_self) hb⟩
    intro q hq
    split at hq
    · exact hrst q hq
    · exact hrst q (List.mem_cons_of_mem p hq)

/-- An offered command that does not complete at the first `k` edges: after the next edge the state is the one the
command's meaning leaves, but for the input taken, and the block is ready exactly when that edge completes it. -/
theorem clockedRun_accepted (k : Nat) (c : Bool) (s : State) (f : Frame) (rest : List Pins) (i : Instr)
    (hgood : s.Good) (hb : s.busy = false) (hoffer : s.Offers f rest) (hrst : ∀ p ∈ rest, p.rst = false)
    (hd : decode f = .command i) :
    ∃ ps : List Pins, (∀ p ∈ ps, p.rst = false) ∧
      clockedRun (List.replicate k false ++ [c]) s = { s.execute i with busy := !c, port := ps } := by
  induction k generalizing c with
  | zero =>
    obtain ⟨p, hp, hr, hv, rfl⟩ := hoffer
    refine ⟨rest, hrst, advanceAt_next c s _ ?_⟩
    rw [clockEdge_command_of_good c s p rest i hgood hp hr hb hv hd, exec_eq_next_execute]
    rfl
  | succ k ih =>
    obtain ⟨ps, hps, hbusy⟩ := ih false
    obtain ⟨qs, hqs, hedge⟩ := advanceAt_waiting c { s.execute i with busy := true, port := ps } rfl hps
    refine ⟨qs, hqs, ?_⟩
    rw [List.replicate_succ', clockedRun_append, hbusy]
    exact hedge

/-- Settles O28: the state after each edge up to the completing one is known from the accepted command. -/
theorem acceptedCommandCompletes : Obligations.AcceptedCommandCompletes := by
  intro k s t f rest i hgood hready hoffer hrst hd hexec
  have hb : s.busy = false := by simpa [State.cmdReady] using hready
  obtain rfl := (exec_eq_next_iff i s t).mp hexec
  constructor
  · rintro (_ | j) hj -
    · cases hj
    · obtain ⟨ps, -, hrun⟩ := clockedRun_accepted j false s f rest i hgood hb hoffer hrst hd
      rw [List.replicate_succ', hrun]
      rfl
  · intro draw
    obtain ⟨ps, -, hrun⟩ := clockedRun_accepted k true s f rest i hgood hb hoffer hrst hd
    rw [hrun]
    exact ⟨rfl, rfl, rfl, rfl⟩

end Sys2Proof.Machine
end

section
/-! PROOFS. The decoder and the must-be-zero bits (spec/30_encoding.md R43 to R48): an opcode that has a must-be-zero
column stands for one command, which is read where those bits are 0 and refused where they are not. -/

namespace Sys2Proof.Machine

/-! The refusal of R46, as a choice between two answers. -/

theorem ifReservedZero_nonzero {n : Nat} (reserved : BitVec n) (i : Instr) (h : reserved ≠ 0#n) :
    ifReservedZero reserved i = .refused .nonzeroReservedBits :=
  if_neg h

theorem ifReservedZero_congr {m n : Nat} (a : BitVec m) (b : BitVec n) (i : Instr) (h : a = 0#m ↔ b = 0#n) :
    ifReservedZero a i = ifReservedZero b i := by
  simp only [ifReservedZero, h]

/-- Masking with ones above bit `k` looks at exactly the bits above bit `k`. -/
theorem and_highMask_eq_zero_iff {n k : Nat} (d mask : BitVec (n + k)) (hmask : mask = BitVec.allOnes n ++ 0#k) :
    d &&& mask = 0#(n + k) ↔ d.extractLsb' k n = 0#n := by
  have hd : d &&& mask = d.extractLsb' k n ++ 0#k :=
    calc d &&& mask = (d.extractLsb' k n ++ d.extractLsb' 0 k) &&& (BitVec.allOnes n ++ 0#k) := by
          rw [BitVec.extractLsb'_append_extractLsb', hmask]
      _ = d.extractLsb' k n ++ 0#k := by rw [BitVec.and_append, BitVec.and_allOnes, BitVec.and_zero]
  rw [hd, ← BitVec.zero_append_zero, BitVec.append_left_inj]

/-- A value whose bits above bit `k` are 0 is its low bits with zeros put above them. -/
theorem zero_append_low_of_high_eq_zero {n k : Nat} (d : BitVec (n + k)) (h : d.extractLsb' k n = 0#n) :
    0#n ++ d.extractLsb' 0 k = d := by
  rw [← h, BitVec.extractLsb'_append_extractLsb']

/-- The low lanes of a word side by side. -/
theorem lane_one_append_lane_zero (d : Word) : lane 1 d ++ lane 0 d = d.extractLsb' 0 16 :=
  BitVec.extractLsb'_append_extractLsb'_eq_extractLsb' rfl

theorem lane_two_append_lanes (d : Word) : lane 2 d ++ (lane 1 d ++ lane 0 d) = d.extractLsb' 0 24 := by
  rw [lane_one_append_lane_zero]
  exact BitVec.extractLsb'_append_extractLsb'_eq_extractLsb' rfl

/-- An opcode that is not reserved is one of eight (R43, R47). -/
theorem opcode_cases (op : Byte) (h : op.toNat < 8) :
    op = 0x00#8 ∨ op = 0x01#8 ∨ op = 0x02#8 ∨ op = 0x03#8 ∨ op = 0x04#8 ∨ op = 0x05#8 ∨ op = 0x06#8 ∨ op = 0x07#8 := by
  decide +revert

/-- The reserved opcodes are those without must-be-zero bits (R43, R47). -/
theorem mustBeZero_eq_none_iff (op : Byte) : mustBeZero op = none ↔ 0x08 ≤ op.toNat := by
  decide +revert

/-- A frame with a reserved opcode is refused as such, whatever its data (R47). -/
theorem decode_of_mustBeZero_none (f : Frame) (h : mustBeZero (frameOp f) = none) :
    decode f = .refused .reservedOpcode := by
  have hop : 0x08 ≤ (frameOp f).toNat := (mustBeZero_eq_none_iff _).mp h
  unfold decode
  split
  case h_9 => rfl
  all_goals omega

/-- An opcode that is not reserved stands for one command: a frame decodes to it where the must-be-zero bits are 0, and
is then the frame of that command (R44, R46). -/
theorem decode_mkFrame_of_mustBeZero_some (op : Byte) (d mask : Word) (h : mustBeZero op = some mask) :
    ∃ i, decode (mkFrame op d) = ifReservedZero (d &&& mask) i ∧ (d &&& mask = 0#32 → encode i = mkFrame op d) := by
  have hop : op.toNat < 8 := by
    by_contra hge
    rw [(mustBeZero_eq_none_iff op).mpr (Nat.le_of_not_lt hge)] at h
    cases h
  obtain rfl | rfl | rfl | rfl | rfl | rfl | rfl | rfl := opcode_cases op hop <;> obtain rfl := Option.some.inj h
  · have hz : d &&& 0xFFFFFFFF#32 = d := BitVec.and_allOnes
    exact ⟨.nop, by rw [decode_op_nop, hz], fun h0 => by rw [encode, ← h0, hz]⟩
  · have hz : d &&& 0xFFFFFFFF#32 = d := BitVec.and_allOnes
    exact ⟨.init, by rw [decode_op_init, hz], fun h0 => by rw [encode, ← h0, hz]⟩
  · exact ⟨.seed d, by rw [decode_op_seed, BitVec.and_zero, ifReservedZero_zero], fun _ => rfl⟩
  · exact ⟨.foldw d, by rw [decode_op_foldw, BitVec.and_zero, ifReservedZero_zero], fun _ => rfl⟩
  · have hz := and_highMask_eq_zero_iff (n := 24) (k := 8) d 0xFFFFFF00#32 rfl
    refine ⟨.foldt1 (lane 0 d), by rw [decode_op_foldt1, ifReservedZero_congr _ _ _ hz], fun h0 => ?_⟩
    exact congrArg (mkFrame 0x04#8) (zero_append_low_of_high_eq_zero (n := 24) (k := 8) d (hz.mp h0))
  · have hz := and_highMask_eq_zero_iff (n := 16) (k := 16) d 0xFFFF0000#32 rfl
    refine ⟨.foldt2 (lane 0 d) (lane 1 d), by rw [decode_op_foldt2, ifReservedZero_congr _ _ _ hz], fun h0 => ?_⟩
    rw [encode, lane_one_append_lane_zero]
    exact congrArg (mkFrame 0x05#8) (zero_append_low_of_high_eq_zero (n := 16) (k := 16) d (hz.mp h0))
  · have hz := and_highMask_eq_zero_iff (n := 8) (k := 24) d 0xFF000000#32 rfl
    refine ⟨.foldt3 (lane 0 d) (lane 1 d) (lane 2 d), by rw [decode_op_foldt3, ifReservedZero_congr _ _ _ hz],
      fun h0 => ?_⟩
    rw [encode, lane_two_append_lanes]
    exact congrArg (mkFrame 0x06#8) (zero_append_low_of_high_eq_zero (n := 8) (k := 24) d (hz.mp h0))
  · have hz := and_highMask_eq_zero_iff (n := 24) (k := 8) d 0xFFFFFF00#32 rfl
    refine ⟨.lutrd (lane 0 d), by rw [decode_op_lutrd, ifReservedZero_congr _ _ _ hz], fun h0 => ?_⟩
    exact congrArg (mkFrame 0x07#8) (zero_append_low_of_high_eq_zero (n := 24) (k := 8) d (hz.mp h0))

/-- Everything the decoder can answer: a reserved opcode (R47), a must-be-zero bit that is 1 (R46), or the command whose
frame it is (R44, R48). -/
theorem decode_cases (f : Frame) :
    (mustBeZero (frameOp f) = none ∧ decode f = .refused .reservedOpcode) ∨
    ∃ mask, mustBeZero (frameOp f) = some mask ∧
      ((frameData f &&& mask ≠ 0#32 ∧ decode f = .refused .nonzeroReservedBits) ∨
       (frameData f &&& mask = 0#32 ∧ ∃ i, decode f = .command i ∧ encode i = f)) := by
  cases h : mustBeZero (frameOp f) with
  | none => exact .inl ⟨rfl, decode_of_mustBeZero_none f h⟩
  | some mask =>
    refine .inr ⟨mask, rfl, ?_⟩
    obtain ⟨i, hd, he⟩ := decode_mkFrame_of_mustBeZero_some (frameOp f) (frameData f) mask h
    rw [mkFrame_op_data] at hd he
    by_cases hz : frameData f &&& mask = 0#32
    · exact .inr ⟨hz, i, by rw [hd, hz, ifReservedZero_zero], he hz⟩
    · exact .inl ⟨hz, by rw [hd, ifReservedZero_nonzero _ i hz]⟩

/-- The decoder answers a command on the frame of that command only (R44, R48). -/
theorem decode_eq_command_iff (f : Frame) (i : Instr) : decode f = .command i ↔ f = encode i := by
  constructor
  · intro h
    obtain ⟨-, hd⟩ | ⟨mask, -, ⟨-, hd⟩ | ⟨-, j, hd, he⟩⟩ := decode_cases f
    · rw [hd] at h
      cases h
    · rw [hd] at h
      cases h
    · rw [hd] at h
      cases h
      exact he.symm
  · rintro rfl
    exact decode_encode i

end Sys2Proof.Machine
end

section
/-! PROOFS. The statements on encoding (spec/30_encoding.md R44 to R48), from the decoder's cases. -/

namespace Sys2Proof.Machine

/-- Settles O1. -/
theorem decodeEncodeRoundTrip : Obligations.DecodeEncodeRoundTrip :=
  decode_encode

/-- Settles O2. -/
theorem commandFramesAreExactlyEncodings : Obligations.CommandFramesAreExactlyEncodings :=
  decode_eq_command_iff

/-- A well-formed frame is one whose opcode has must-be-zero bits, all of them 0 (R46, R47). -/
theorem frameWellFormed_iff (f : Frame) :
    frameWellFormed f = true ↔ ∃ mask, mustBeZero (frameOp f) = some mask ∧ frameData f &&& mask = 0#32 := by
  unfold frameWellFormed
  cases mustBeZero (frameOp f) <;> simp

/-- The well-formed frames are the frames of commands (R46, R47). -/
theorem frameWellFormed_iff_command (f : Frame) : frameWellFormed f = true ↔ ∃ i, decode f = .command i := by
  rw [frameWellFormed_iff]
  obtain ⟨hm, hd⟩ | ⟨mask, hm, ⟨hz, hd⟩ | ⟨hz, i, hd, -⟩⟩ := decode_cases f
  · simp [hm, hd]
  · simp [hm, hd, hz]
  · simp [hm, hd, hz]

/-- A frame is refused for its opcode exactly when the opcode is reserved (R47). -/
theorem decode_eq_reservedOpcode_iff (f : Frame) :
    decode f = .refused .reservedOpcode ↔ mustBeZero (frameOp f) = none := by
  obtain ⟨hm, hd⟩ | ⟨mask, hm, ⟨-, hd⟩ | ⟨-, i, hd, -⟩⟩ := decode_cases f <;> simp [hm, hd]

/-- A frame is refused for its data exactly when a must-be-zero bit of its opcode is 1 (R46). -/
theorem decode_eq_nonzeroReservedBits_iff (f : Frame) :
    decode f = .refused .nonzeroReservedBits ↔
      ∃ mask, mustBeZero (frameOp f) = some mask ∧ frameData f &&& mask ≠ 0#32 := by
  obtain ⟨hm, hd⟩ | ⟨mask, hm, ⟨hz, hd⟩ | ⟨hz, i, hd, -⟩⟩ := decode_cases f
  · simp [hm, hd]
  · simp [hm, hd, hz]
  · simp [hm, hd, hz]

/-- Settles O5; the two examples of R46 are evaluated. -/
theorem decoderRefusesExactlyReserved : Obligations.DecoderRefusesExactlyReserved := by
  refine ⟨?_, decode_eq_nonzeroReservedBits_iff, frameWellFormed_iff_command, by decide, by decide⟩
  intro f
  rw [decode_eq_reservedOpcode_iff, mustBeZero_eq_none_iff]
  rfl

/-! The match and mask rows of R44. -/

/-- Every command's frame matches the command's row, and the row is in the table (R44). -/
theorem frame_in_row (i : Instr) : rowMatches (opcodeRow i) (encode i) = true ∧ opcodeRow i ∈ opcodeRows := by
  cases i with
  | nop => exact Laws.FrameInRow.nop
  | init => exact Laws.FrameInRow.init
  | seed s => exact Laws.FrameInRow.seed s
  | foldw w => exact Laws.FrameInRow.foldw w
  | foldt1 b0 => exact Laws.FrameInRow.foldt1 b0
  | foldt2 b0 b1 => exact Laws.FrameInRow.foldt2 b0 b1
  | foldt3 b0 b1 b2 => exact Laws.FrameInRow.foldt3 b0 b1 b2
  | lutrd k => exact Laws.FrameInRow.lutrd k

/-- A row of R44 fixes the whole opcode, and masks the must-be-zero bits of that opcode (R43). -/
theorem opcodeRows_mask : ∀ r ∈ opcodeRows,
    frameOp r.mask = 0xFF#8 ∧ frameData r.matchBits = 0#32 ∧
      mustBeZero (frameOp r.matchBits) = some (frameData r.mask) := by
  decide

/-! Masking a frame masks its two fields. -/

theorem frameOp_and (f g : Frame) : frameOp (f &&& g) = frameOp f &&& frameOp g :=
  BitVec.extractLsb'_and

theorem frameData_and (f g : Frame) : frameData (f &&& g) = frameData f &&& frameData g :=
  BitVec.extractLsb'_and

/-- A frame that matches a row of the table has the row's opcode, and its must-be-zero bits are 0. -/
theorem op_data_of_rowMatches (r : OpcodeRow) (f : Frame) (hr : r ∈ opcodeRows) (h : rowMatches r f = true) :
    frameOp f = frameOp r.matchBits ∧ frameData f &&& frameData r.mask = 0#32 := by
  obtain ⟨hop, hdata, -⟩ := opcodeRows_mask r hr
  have hmatch : f &&& r.mask = r.matchBits := beq_iff_eq.mp h
  constructor
  · have hones : frameOp f &&& 0xFF#8 = frameOp f := BitVec.and_allOnes
    rw [← hmatch, frameOp_and, hop, hones]
  · rw [← hdata, ← hmatch, frameData_and]

/-- A row of the table is determined by its opcode. -/
theorem opcodeRow_unique (r r' : OpcodeRow) (hr : r ∈ opcodeRows) (hr' : r' ∈ opcodeRows)
    (h : frameOp r.matchBits = frameOp r'.matchBits) : r = r' := by
  have hall : ∀ r ∈ opcodeRows, ∀ r' ∈ opcodeRows, frameOp r.matchBits = frameOp r'.matchBits → r = r' := by decide
  exact hall r hr r' hr' h

/-- No frame matches two rows (R44): each of them has the frame's opcode. -/
theorem rowMatches_unique (f : Frame) (r r' : OpcodeRow) (hr : r ∈ opcodeRows) (hr' : r' ∈ opcodeRows)
    (h : rowMatches r f = true) (h' : rowMatches r' f = true) : r = r' := by
  obtain ⟨hop, -⟩ := op_data_of_rowMatches r f hr h
  obtain ⟨hop', -⟩ := op_data_of_rowMatches r' f hr' h'
  exact opcodeRow_unique r r' hr hr' (hop.symm.trans hop')

/-- A frame that decodes to a command matches the command's row (R44). -/
theorem rowMatches_of_decode (f : Frame) (i : Instr) (h : decode f = .command i) :
    rowMatches (opcodeRow i) f = true := by
  obtain rfl := (decode_eq_command_iff f i).mp h
  exact (frame_in_row i).1

/-- A frame that matches a row of the table decodes to a command of that row (R44): it is well-formed, and its command's
row is the only one it matches. -/
theorem command_of_rowMatches (f : Frame) (r : OpcodeRow) (hr : r ∈ opcodeRows) (h : rowMatches r f = true) :
    ∃ i, decode f = .command i ∧ opcodeRow i = r := by
  obtain ⟨hop, hz⟩ := op_data_of_rowMatches r f hr h
  obtain ⟨-, -, hmask⟩ := opcodeRows_mask r hr
  rw [← hop] at hmask
  obtain ⟨i, hd⟩ := (frameWellFormed_iff_command f).mp ((frameWellFormed_iff f).mpr ⟨_, hmask, hz⟩)
  exact ⟨i, hd, rowMatches_unique f _ r (frame_in_row i).2 hr (rowMatches_of_decode f i hd) h⟩

/-- Settles O3: the eight bit patterns are the frames that encode gives. -/
theorem bitPatternsAndRows : Obligations.BitPatternsAndRows :=
  ⟨⟨decode_encode .nop, decode_encode .init, fun s => decode_encode (.seed s),
      fun w => decode_encode (.foldw w), fun a => decode_encode (.foldt1 a), fun a b => decode_encode (.foldt2 a b),
      fun a b c => decode_encode (.foldt3 a b c), fun i => decode_encode (.lutrd i)⟩,
    rowMatches_of_decode, command_of_rowMatches, rowMatches_unique⟩

/-- A lane of the data field is the byte of the frame at the same place (R42). -/
theorem lane_frameData (k : Nat) (f : Frame) (hk : k < 4) : lane k (frameData f) = f.extractLsb' (8 * k) 8 :=
  BitVec.extractLsb'_extractLsb'_of_le (by omega)

/-- Settles O4: a frame that decodes to a command is the command's frame, whose lanes hold the operands. -/
theorem operandsTakenUnchanged : Obligations.OperandsTakenUnchanged := by
  refine ⟨?_, ?_, ?_, ?_, ?_, ?_, fun i => ⟨encode (.lutrd i), decode_encode _⟩⟩
  · intro f s h
    obtain rfl := (decode_eq_command_iff f _).mp h
    exact (frameData_mkFrame 0x02#8 s).symm
  · intro f w h
    obtain rfl := (decode_eq_command_iff f _).mp h
    exact (frameData_mkFrame 0x03#8 w).symm
  · intro f b0 h
    obtain rfl := (decode_eq_command_iff f _).mp h
    rw [← lane_frameData 0 _ (by decide), encode, frameData_mkFrame, lane_append_one]
  · intro f b0 b1 h
    obtain rfl := (decode_eq_command_iff f _).mp h
    obtain ⟨h0, h1⟩ := lane_append_two 0#16 b1 b0
    rw [← lane_frameData 0 _ (by decide), ← lane_frameData 1 _ (by decide), encode, frameData_mkFrame]
    exact ⟨h0.symm, h1.symm⟩
  · intro f b0 b1 b2 h
    obtain rfl := (decode_eq_command_iff f _).mp h
    obtain ⟨h0, h1, h2, -⟩ := lane_append_four 0#8 b2 b1 b0
    rw [← lane_frameData 0 _ (by decide), ← lane_frameData 1 _ (by decide), ← lane_frameData 2 _ (by decide), encode,
      frameData_mkFrame]
    exact ⟨h0.symm, h1.symm, h2.symm⟩
  · intro f i h
    obtain rfl := (decode_eq_command_iff f _).mp h
    rw [← lane_frameData 0 _ (by decide), encode, frameData_mkFrame, lane_append_one]

/-- Settles O6: ten fixed frames, evaluated. -/
theorem sampleFramesDecode : Obligations.SampleFramesDecode := by
  unfold Obligations.SampleFramesDecode
  decide

end Sys2Proof.Machine
end

section
/-! PROOFS. The port at one edge (spec/30_encoding.md R41, spec/60_exceptions.md R99, spec/70_reset_and_hazards.md R105):
each statement is one case of the clock edge. -/

namespace Sys2Proof.Machine

/-- The block is ready exactly when it is not busy (R21, R23). -/
theorem State.cmdReady_eq (s : State) (b : Bool) : s.cmdReady = b ↔ s.busy = !b := by
  unfold State.cmdReady
  exact Bool.not_eq_eq_eq_not

/-- Settles O19: outside a refused run the accepted command's answer is the meaning's own. -/
theorem stepRunsDecodedCommand : Obligations.StepRunsDecodedCommand := by
  rintro s f rest i hgood hready ⟨p, hp, hr, hv, rfl⟩ hd
  have hb : s.busy = false := (s.cmdReady_eq _).mp hready
  have hedge := fun completes => clockEdge_command_of_good completes s p rest i hgood hp hr hb hv hd
  refine ⟨?_, hedge⟩
  rw [step, hedge true, Bool.not_true, ← hb]

/-- Settles O24. -/
theorem idleBlockHoldsItsState : Obligations.IdleBlockHoldsItsState := by
  constructor
  · intro c s _ hready hp
    have hb : s.busy = false := (s.cmdReady_eq _).mp hready
    rw [clockEdge_nil c s hp, hb, Bool.false_and, ← hb]
  · intro c s p rest _ hready hp hr hv
    have hb : s.busy = false := (s.cmdReady_eq _).mp hready
    exact clockEdge_idle c s p rest hp hr hb hv

/-- Settles O25: at an edge of a busy block the head of the input stays exactly when it is an offered frame. -/
theorem busyBlockAcceptsNothing : Obligations.BusyBlockAcceptsNothing := by
  intro c s p rest _ hready hp hr
  have hb : s.busy = true := (s.cmdReady_eq _).mp hready
  have hedge := clockEdge_busy c s p rest hp hr hb
  constructor
  · intro hv
    rw [hedge, if_pos hv, ← hp]
  · intro hv
    rw [hedge, if_neg (by simp [hv])]

end Sys2Proof.Machine
end

section
/-! PROOFS. The assembler (spec/30_encoding.md R50): a line assembles exactly when it is well-formed, and the number of a
command's frame is its opcode above its data. -/

namespace Sys2Proof.Machine

/-- A well-formed line assembles to the commands it expands to. -/
theorem assembleLine_of_wellFormed (line : SourceLine) (h : lineWellFormed line = true) :
    assembleLine line = .ok (expandLine line.op line.operands) := by
  obtain ⟨harity, hfit⟩ := Bool.and_eq_true_iff.mp h
  simp [assembleLine, harity, hfit]

/-- A line with an operand that does not fit its field is an error (R50). -/
theorem assembleLine_of_not_fit (line : SourceLine) (harity : arityOk line.op line.operands.length = true)
    (hfit : operandsFit line = false) : assembleLine line = .error .operandTooWide := by
  simp [assembleLine, harity, hfit]

/-- A line with too few or too many operands is an error (R50). -/
theorem assembleLine_of_wrong_arity (line : SourceLine) (harity : arityOk line.op line.operands.length = false) :
    assembleLine line = .error .wrongOperandCount := by
  simp [assembleLine, harity]

/-- The lines that assemble are the well-formed ones. -/
theorem lineWellFormed_iff_assembles (line : SourceLine) :
    lineWellFormed line = true ↔ ∃ is, assembleLine line = .ok is := by
  constructor
  · intro h
    exact ⟨_, assembleLine_of_wellFormed line h⟩
  · rintro ⟨is, h⟩
    cases harity : arityOk line.op line.operands.length with
    | false =>
      rw [assembleLine_of_wrong_arity line harity] at h
      cases h
    | true =>
      cases hfit : operandsFit line with
      | false =>
        rw [assembleLine_of_not_fit line harity hfit] at h
        cases h
      | true => rw [lineWellFormed, harity, hfit, Bool.and_self]

/-- A line of bytes assembles when it has its operands and each is below `2 ^ 8`. -/
theorem assembleLine_of_bytes (op : AsmOp) (vs : List Nat) (hwords : wordOperands op = 0)
    (harity : arityOk op vs.length = true) (hbytes : ∀ v ∈ vs, v < 2 ^ 8) :
    assembleLine ⟨op, vs⟩ = .ok (expandLine op vs) := by
  apply assembleLine_of_wellFormed
  simpa [lineWellFormed, operandsFit, hwords, harity] using hbytes

/-- A line of a word and bytes assembles when it has its operands, the word is below `2 ^ 32` and each byte below
`2 ^ 8`. -/
theorem assembleLine_of_word (op : AsmOp) (v : Nat) (vs : List Nat) (hwords : wordOperands op = 1)
    (harity : arityOk op (vs.length + 1) = true) (hword : v < 2 ^ 32) (hbytes : ∀ v ∈ vs, v < 2 ^ 8) :
    assembleLine ⟨op, v :: vs⟩ = .ok (expandLine op (v :: vs)) := by
  apply assembleLine_of_wellFormed
  simpa [lineWellFormed, operandsFit, hwords, harity] using And.intro hword hbytes

/-- Side by side, the upper value counts in units of the lower one's range. -/
theorem toNat_append_eq_add {m n : Nat} (x : BitVec m) (y : BitVec n) :
    (x ++ y).toNat = x.toNat * 2 ^ n + y.toNat := by
  rw [BitVec.toNat_append, ← Nat.shiftLeft_add_eq_or_of_lt y.isLt, Nat.shiftLeft_eq]

/-- Zeros above a value leave its number. -/
theorem toNat_zero_append {m n : Nat} (y : BitVec n) : (0#m ++ y).toNat = y.toNat := by
  rw [toNat_append_eq_add, BitVec.toNat_zero, Nat.zero_mul, Nat.zero_add]

/-- The number of a frame: the opcode above 32 bits of data (R42). -/
theorem toNat_mkFrame (op : Byte) (d : Word) : (mkFrame op d).toNat = op.toNat * 2 ^ 32 + d.toNat :=
  toNat_append_eq_add op d

/-- The number of a frame whose data is one byte. -/
theorem toNat_mkFrame_byte (op b0 : Byte) : (mkFrame op (0#24 ++ b0)).toNat = op.toNat * 2 ^ 32 + b0.toNat := by
  rw [toNat_mkFrame]
  exact congrArg _ (toNat_zero_append b0)

/-- An operand that fits its field stands in it unchanged (R50). -/
theorem toNat_ofNat_of_lt {n v : Nat} (h : v < 2 ^ n) : (BitVec.ofNat n v).toNat = v := by
  rw [BitVec.toNat_ofNat, Nat.mod_eq_of_lt h]

/-- Settles O57: each operand in range is one field of the frame, and the fields stand side by side. -/
theorem assemblerChecksOperands : Obligations.AssemblerChecksOperands := by
  refine ⟨lineWellFormed_iff_assembles, assembleLine_of_not_fit, ⟨.nop, rfl, by decide⟩, ⟨.init, rfl, by decide⟩,
    ?_, ?_, ?_, ?_, ?_, ?_⟩
  · intro v hv
    refine ⟨.seed (BitVec.ofNat 32 v), assembleLine_of_word .seed v [] rfl rfl hv (by simp), ?_⟩
    rw [encode, toNat_mkFrame, toNat_ofNat_of_lt hv]
    rfl
  · intro v hv
    refine ⟨.foldw (BitVec.ofNat 32 v), assembleLine_of_word .foldw v [] rfl rfl hv (by simp), ?_⟩
    rw [encode, toNat_mkFrame, toNat_ofNat_of_lt hv]
    rfl
  · intro a ha
    refine ⟨.foldt1 (BitVec.ofNat 8 a), assembleLine_of_bytes .foldt1 [a] rfl rfl (by simpa using ha), ?_⟩
    rw [encode, toNat_mkFrame_byte, toNat_ofNat_of_lt ha]
    rfl
  · intro a b ha hb
    refine ⟨.foldt2 (BitVec.ofNat 8 a) (BitVec.ofNat 8 b),
      assembleLine_of_bytes .foldt2 [a, b] rfl rfl (by simpa using And.intro ha hb), ?_⟩
    rw [encode, toNat_mkFrame, toNat_zero_append, toNat_append_eq_add, toNat_ofNat_of_lt ha, toNat_ofNat_of_lt hb,
      ← Nat.add_assoc]
    rfl
  · intro a b c ha hb hc
    refine ⟨.foldt3 (BitVec.ofNat 8 a) (BitVec.ofNat 8 b) (BitVec.ofNat 8 c),
      assembleLine_of_bytes .foldt3 [a, b, c] rfl rfl (by simpa using And.intro ha (And.intro hb hc)), ?_⟩
    rw [encode, toNat_mkFrame, toNat_zero_append, toNat_append_eq_add, toNat_append_eq_add, toNat_ofNat_of_lt ha,
      toNat_ofNat_of_lt hb, toNat_ofNat_of_lt hc, ← Nat.add_assoc, ← Nat.add_assoc]
    rfl
  · intro k hk
    refine ⟨.lutrd (BitVec.ofNat 8 k), assembleLine_of_bytes .lutrd [k] rfl rfl (by simpa using hk), ?_⟩
    rw [encode, toNat_mkFrame_byte, toNat_ofNat_of_lt hk]
    rfl

end Sys2Proof.Machine
end

section
/-! PROOFS. The pseudo-commands (spec/30_encoding.md R51): a byte sequence by its first four bytes and the rest, and the
lines of numbers that stand for bytes. -/

namespace Sys2Proof.Machine

/-- The number of a little-endian word: byte 0 is least significant (R27). -/
theorem toNat_leWord (b0 b1 b2 b3 : Byte) :
    (leWord b0 b1 b2 b3).toNat = b0.toNat + b1.toNat * 2 ^ 8 + b2.toNat * 2 ^ 16 + b3.toNat * 2 ^ 24 := by
  rw [leWord_eq_append, toNat_append_eq_add, toNat_append_eq_add, toNat_append_eq_add]
  omega

/-- A position past the first four bytes is a position in the rest. -/
theorem byteAt_cons_four (b0 b1 b2 b3 : Byte) (rest : List Byte) (k : Nat) :
    byteAt (b0 :: b1 :: b2 :: b3 :: rest) (k + 4) = byteAt rest k :=
  rfl

/-- A position counted from the end does not depend on four bytes put in front. -/
theorem byteAt_cons_four_from_end (b0 b1 b2 b3 : Byte) (rest : List Byte) (k : Nat) (hk : k ≤ rest.length) :
    byteAt (b0 :: b1 :: b2 :: b3 :: rest) (rest.length + 4 - k) = byteAt rest (rest.length - k) := by
  rw [Nat.sub_add_comm hk, byteAt_cons_four]

theorem wordAt_cons_four_zero (b0 b1 b2 b3 : Byte) (rest : List Byte) :
    wordAt (b0 :: b1 :: b2 :: b3 :: rest) 0 = leWord b0 b1 b2 b3 :=
  rfl

/-- The full words after the first are those of the rest. -/
theorem wordAt_cons_four_succ (b0 b1 b2 b3 : Byte) (rest : List Byte) (j : Nat) :
    wordAt (b0 :: b1 :: b2 :: b3 :: rest) (j + 1) = wordAt rest j :=
  rfl

/-- A full word in front is one fold in front, and the tail is counted from the end (R51). -/
theorem expandBytes_cons_four (b0 b1 b2 b3 : Byte) (rest : List Byte) :
    expandBytes (b0 :: b1 :: b2 :: b3 :: rest) = .foldw (leWord b0 b1 b2 b3) :: expandBytes rest := by
  have hlen : (b0 :: b1 :: b2 :: b3 :: rest).length = rest.length + 4 := rfl
  have hwords : (List.range (rest.length / 4 + 1)).map
        (fun j => Instr.foldw (wordAt (b0 :: b1 :: b2 :: b3 :: rest) j)) =
      .foldw (leWord b0 b1 b2 b3) :: (List.range (rest.length / 4)).map (fun j => .foldw (wordAt rest j)) := by
    rw [List.range_succ_eq_map, List.map_cons, List.map_map, wordAt_cons_four_zero]
    rfl
  simp only [expandBytes, hlen, Nat.add_div_right _ (show 0 < 4 by decide), Nat.add_mod_right, hwords]
  -- in each case the tail is no longer than the rest
  split
  case h_4 => rfl
  all_goals simp (disch := omega) only [byteAt_cons_four_from_end, List.cons_append]

/-! A sequence that is only a tail is one tail fold (R51). -/

theorem expandBytes_one (b0 : Byte) : expandBytes [b0] = [.foldt1 b0] := by
  simp [expandBytes, byteAt]

theorem expandBytes_two (b0 b1 : Byte) : expandBytes [b0, b1] = [.foldt2 b0 b1] := by
  simp [expandBytes, byteAt]

theorem expandBytes_three (b0 b1 b2 : Byte) : expandBytes [b0, b1, b2] = [.foldt3 b0 b1 b2] := by
  simp [expandBytes, byteAt]

/-- One fold per full word, and one for a tail (R51). -/
theorem length_expandBytes : ∀ bytes : List Byte, (expandBytes bytes).length = (bytes.length + 3) / 4
  | [] => rfl
  | [b0] => by simp [expandBytes_one]
  | [b0, b1] => by simp [expandBytes_two]
  | [b0, b1, b2] => by simp [expandBytes_three]
  | b0 :: b1 :: b2 :: b3 :: rest => by
    rw [expandBytes_cons_four, List.length_cons, length_expandBytes rest]
    simp only [List.length_cons]
    omega

/-- The numbers of bytes are below `2 ^ 8`. -/
theorem lt_of_mem_map_toNat (bytes : List Byte) : ∀ v ∈ bytes.map BitVec.toNat, v < 2 ^ 8 := by
  intro v hv
  obtain ⟨b, -, rfl⟩ := List.mem_map.mp hv
  exact b.isLt

/-- Bytes written as numbers and read again are the bytes. -/
theorem map_ofNat_map_toNat (bytes : List Byte) : (bytes.map BitVec.toNat).map (BitVec.ofNat 8) = bytes := by
  rw [List.map_map]
  exact List.map_id'' (fun b => BitVec.eq_of_toNat_eq (toNat_ofNat_of_lt b.isLt)) bytes

/-- Settles O58: the folds by the first four bytes and the rest, and each line by the bytes its numbers stand for. -/
theorem pseudoCommandsExpand : Obligations.PseudoCommandsExpand := by
  refine ⟨?_, length_expandBytes, rfl, expandBytes_cons_four, expandBytes_one, expandBytes_two,
    expandBytes_three, ?_, ?_⟩
  · intro a b c d ha hb hc hd
    have hword : leWord (BitVec.ofNat 8 a) (BitVec.ofNat 8 b) (BitVec.ofNat 8 c) (BitVec.ofNat 8 d) =
        BitVec.ofNat 32 (a + b * 2 ^ 8 + c * 2 ^ 16 + d * 2 ^ 24) := by
      apply BitVec.eq_of_toNat_eq
      rw [toNat_leWord, toNat_ofNat_of_lt ha, toNat_ofNat_of_lt hb, toNat_ofNat_of_lt hc, toNat_ofNat_of_lt hd,
        toNat_ofNat_of_lt (by omega)]
    rw [assembleLine_of_bytes .foldb4 [a, b, c, d] rfl rfl (by simpa using ⟨ha, hb, hc, hd⟩), ← hword]
    rfl
  · intro bytes
    have hbytes := lt_of_mem_map_toNat bytes
    rw [assembleLine_of_bytes .bytes _ rfl rfl hbytes, assembleLine_of_bytes .compute _ rfl rfl hbytes, expandLine,
      expandLine, map_ofNat_map_toNat, expandCompute]
    exact ⟨rfl, rfl⟩
  · intro v bytes
    rw [assembleLine_of_word .resume v.toNat _ rfl (by simp [arityOk]) v.isLt (lt_of_mem_map_toNat bytes)]
    simp only [expandLine, map_ofNat_map_toNat, expandResume, BitVec.ofNat_toNat, BitVec.setWidth_eq]

end Sys2Proof.Machine
end

section
/-! PROOFS. The default table (spec/40_lut.md R57 to R59): its entries are the values of the generation loop, and it is
linear and injective because each round of that loop is. -/

namespace Sys2Proof.Machine

/-! The generation loop of R57. -/

/-- One round as a sum: the shifted word, and the polynomial when the bit shifted out was 1. -/
theorem genStep_eq_xor (c : Word) : genStep c = c <<< 1 ^^^ (if c.msb then Config.polynomial else 0#32) := by
  unfold genStep
  split
  · rfl
  · rw [BitVec.xor_zero]

/-- A round is linear: the bit shifted out of a sum is the sum of the bits shifted out. -/
theorem genStep_xor (a b : Word) : genStep (a ^^^ b) = genStep a ^^^ genStep b := by
  have hpoly : (if (a ^^^ b).msb then Config.polynomial else 0#32) =
      (if a.msb then Config.polynomial else 0#32) ^^^ (if b.msb then Config.polynomial else 0#32) := by
    rw [BitVec.msb_xor]
    cases a.msb <;> cases b.msb <;> decide
  rw [genStep_eq_xor, genStep_eq_xor a, genStep_eq_xor b, hpoly, BitVec.shiftLeft_xor_distrib]
  ac_rfl

/-- A round loses nothing: where the bit shifted out was 1 it is seen again in bit 0, which the polynomial sets. -/
theorem eq_zero_of_genStep_eq_zero (c : Word) (h : genStep c = 0#32) : c = 0#32 := by
  unfold genStep at h
  split at h
  case isTrue =>
    have hbit : ((c <<< 1) ^^^ Config.polynomial).getLsbD 0 = true := by
      rw [BitVec.getLsbD_xor, BitVec.getLsbD_shiftLeft]
      simp [Config.polynomial]
    rw [h] at hbit
    cases hbit
  case isFalse hmsb =>
    have hlt : 2 * c.toNat < 2 ^ 32 := BitVec.msb_eq_false_iff_two_mul_lt.mp (Bool.eq_false_iff.mpr hmsb)
    have hshift : c.toNat <<< 1 % 2 ^ 32 = 0 := by rw [← BitVec.toNat_shiftLeft, h]; rfl
    apply BitVec.eq_of_toNat_eq
    rw [Nat.shiftLeft_eq] at hshift
    simp only [BitVec.toNat_ofNat]
    omega

theorem genStep_injective : Function.Injective genStep := by
  intro a b h
  have hsum : genStep (a ^^^ b) = 0#32 := by rw [genStep_xor, h, BitVec.xor_self]
  exact BitVec.xor_eq_zero_iff.mp (eq_zero_of_genStep_eq_zero _ hsum)

/-- Any number of rounds are linear. -/
theorem iterate_genStep_xor (n : Nat) (a b : Word) : genStep^[n] (a ^^^ b) = genStep^[n] a ^^^ genStep^[n] b :=
  Function.Semiconj₂.iterate (op := (· ^^^ ·)) genStep_xor n a b

theorem gen_xor (a b : Byte) : gen (a ^^^ b) = gen a ^^^ gen b := by
  rw [gen, BitVec.setWidth_xor, BitVec.shiftLeft_xor_distrib, iterate_genStep_xor]
  rfl

theorem gen_injective : Function.Injective gen := by
  intro a b h
  have htop : a.setWidth 32 <<< 24 = b.setWidth 32 <<< 24 := genStep_injective.iterate 8 h
  bv_omega

theorem gen_eq_zero_iff (b : Byte) : gen b = 0#32 ↔ b = 0#8 := by
  have hzero : gen 0#8 = 0#32 := by decide
  rw [← hzero, gen_injective.eq_iff]

/-! The table of R58 against the loop, a row of the source at a time. -/

/-- The values that the loop generates for `n` indices in order. -/
def genEntries (start n : Nat) : List Word := (List.range' start n).map (fun k => gen (BitVec.ofNat 8 k))

theorem genEntries_append (start m n : Nat) :
    genEntries start m ++ genEntries (start + m) n = genEntries start (m + n) := by
  rw [genEntries, genEntries, ← List.map_append, List.range'_append_1, genEntries]

theorem crcRows_eq_genEntries :
    Config.crcRows0 = genEntries 0x00 32 ∧ Config.crcRows1 = genEntries 0x20 32 ∧
    Config.crcRows2 = genEntries 0x40 32 ∧ Config.crcRows3 = genEntries 0x60 32 ∧
    Config.crcRows4 = genEntries 0x80 32 ∧ Config.crcRows5 = genEntries 0xA0 32 ∧
    Config.crcRows6 = genEntries 0xC0 32 ∧ Config.crcRows7 = genEntries 0xE0 32 := by
  decide

theorem crcValues_eq_genEntries : Config.crcValues = genEntries 0x00 256 := by
  obtain ⟨h0, h1, h2, h3, h4, h5, h6, h7⟩ := crcRows_eq_genEntries
  rw [Config.crcValues, h0, h1, h2, h3, h4, h5, h6, h7]
  simp only [genEntries_append 0x00, Nat.reduceAdd]

/-- An entry read from a table is the value at its index in the table's list. -/
theorem getElem?_toList_lut (t : Lut) (i : Byte) : t.toList[i.toNat]? = some (lutRead t i) := by
  rw [lutRead, Vector.getElem?_toList, Vector.getElem?_eq_getElem i.isLt]

/-- Every entry of the default table is generated (R57, R58). -/
theorem lutRead_crcTable (b : Byte) : lutRead Config.crcTable b = gen b := by
  have hlist : Config.crcTable.toList = Config.crcValues := rfl
  have hentry := getElem?_toList_lut Config.crcTable b
  rw [hlist, crcValues_eq_genEntries, genEntries, List.getElem?_map, List.getElem?_range' b.isLt] at hentry
  simpa using hentry.symm

/-- Settles O44. -/
theorem defaultTableIsGenerated : Obligations.DefaultTableIsGenerated :=
  lutRead_crcTable

/-- Settles O45: the table inherits linearity and injectivity from the rounds of the loop; the listed single-bit entries
are evaluated. -/
theorem defaultTableIsLinear : Obligations.DefaultTableIsLinear := by
  refine ⟨?_, by decide, ?_, ?_⟩
  · intro a b
    rw [lutRead_crcTable, lutRead_crcTable, lutRead_crcTable, gen_xor]
  · intro a b h
    rw [lutRead_crcTable, lutRead_crcTable] at h
    exact gen_injective h
  · intro a
    rw [lutRead_crcTable, gen_eq_zero_iff]

end Sys2Proof.Machine
end

section
/-! PROOFS. The table of a running block: no edge writes it (spec/40_lut.md R54, R55), and LUTRD reads it (R60). -/

namespace Sys2Proof.Machine

/-- Settles O43: no edge writes the table, so no run does. -/
theorem givenTableEntries : Obligations.GivenTableEntries := by
  obtain ⟨⟨hzero, hone⟩, -⟩ := invariantHoldsAtReset
  refine ⟨hzero, hone, ?_, ?_⟩
  · intro c s h
    rwa [advanceAt_lut]
  · intro choices s h
    rwa [clockedRun_lut]

/-- What LUTRD leaves: the entry in `LUT_Q`, the command position, and no other field (R60). -/
theorem exec_lutrd (i : Byte) (s : State) :
    exec (.lutrd i) s = .next { s with lutQ := lutRead s.lut i, cmdIdx := s.cmdIdx + 1 } :=
  exec_eq_next_execute (.lutrd i) s

/-- Settles O14. -/
theorem lutrdReadsTableEntry : Obligations.LutrdReadsTableEntry := by
  refine ⟨fun i s _ => exec_lutrd i s, fun i => decode_encode (.lutrd i), ?_, ?_, ?_, ?_⟩
  · intro d hd
    exact (decode_op_lutrd d).trans (ifReservedZero_nonzero _ _ hd)
  · intro i j s _
    rw [execAll, exec_lutrd]
    exact exec_lutrd j _
  · rintro s - ⟨hzero, hone⟩
    rw [exec_lutrd, exec_lutrd, hzero, hone]
    exact ⟨rfl, rfl⟩
  · intro s _ hlut
    have hlast : lutRead s.lut 0xFF#8 = 0xB1F740B4#32 := by rw [hlut]; decide
    rw [exec_lutrd, hlast]

end Sys2Proof.Machine
end

section
/-! PROOFS. The fold (spec/41_fold.md R61, R62, R65): one table step, and with the default table eight rounds of the
generation loop, so that the fold has the loop's linearity and loses nothing. -/

namespace Sys2Proof.Machine

/-! The two shapes of a table step's parts (R62). -/

/-- The shift drops the top byte and keeps the low three, one place up. -/
theorem shiftLeft_eight_eq_append (c : Word) : c <<< 8 = c.extractLsb' 0 24 ++ 0x00#8 := by
  rw [BitVec.shiftLeft_eq_concat_of_lt (by decide), BitVec.cast_eq]

/-- The index of R61, `(c >> 24) & 0xFF`, is the top byte: the mask keeps a whole byte. -/
theorem setWidth_masked_top_byte (c : Word) : (c >>> 24 &&& 0xFF#32).setWidth 8 = c.extractLsb' 24 8 := by
  have hmask : (0xFF#32 : Word).setWidth 8 = BitVec.allOnes 8 := by decide
  rw [BitVec.setWidth_and, hmask, BitVec.and_allOnes, BitVec.setWidth_ushiftRight_eq_extractLsb]

theorem tableStep_eq_append_xor (t : Lut) (c : Word) :
    tableStep t c = (c.extractLsb' 0 24 ++ 0x00#8) ^^^ lutRead t (c.extractLsb' 24 8) := by
  rw [tableStep, shiftLeft_eight_eq_append]

/-- Settles O37: the fold's steps are the table steps, each in the shape of R62. -/
theorem updateIsFourTableSteps : Obligations.UpdateIsFourTableSteps := by
  intro t crc word
  refine ⟨?_, fun c => ⟨shiftLeft_eight_eq_append c, setWidth_masked_top_byte c⟩⟩
  simp only [update, tableStep_eq_append_xor]
  rfl

/-! The laws of the fold that hold for every table (R65). -/

theorem update_eq_update_zero (t : Lut) (crc word : Word) : update t crc word = update t 0#32 (crc ^^^ word) := by
  rw [update, update, BitVec.zero_xor]

theorem tableStep_zero (t : Lut) (h : lutRead t 0x00#8 = 0#32) : tableStep t 0#32 = 0#32 := by
  rw [tableStep, BitVec.zero_shiftLeft, BitVec.extractLsb'_zero, h, BitVec.xor_zero]

/-- A word folded into itself is gone, where a table step keeps 0. -/
theorem update_self (t : Lut) (c : Word) (h : lutRead t 0x00#8 = 0#32) : update t c c = 0#32 := by
  simp only [update, BitVec.xor_self, tableStep_zero t h]

/-- Settles O38. -/
theorem updateDependsOnXorOnly : Obligations.UpdateDependsOnXorOnly :=
  ⟨update_eq_update_zero, update_self⟩

/-! The default table: a table step is eight rounds of the loop of R57. -/

/-- While the bits shifted out are all 0, the rounds only shift. -/
theorem iterate_genStep_of_lt (n : Nat) (c : Word) (h : c.toNat * 2 ^ n < 2 ^ 32) : genStep^[n] c = c <<< n := by
  induction n with
  | zero => rw [Function.iterate_zero_apply, BitVec.shiftLeft_zero]
  | succ n ih =>
    have hn : c.toNat * 2 ^ n * 2 < 2 ^ 32 := by rwa [Nat.mul_assoc, ← Nat.pow_succ]
    have hshift : (c <<< n).toNat = c.toNat * 2 ^ n := by
      rw [BitVec.toNat_shiftLeft, Nat.shiftLeft_eq, Nat.mod_eq_of_lt (by omega)]
    have hmsb : (c <<< n).msb = false := by
      rw [BitVec.msb_eq_false_iff_two_mul_lt, hshift]
      omega
    rw [Function.iterate_succ_apply', ih (by omega), genStep, if_neg (by simp [hmsb]), ← BitVec.shiftLeft_add]

/-- A word is its top byte and its low three bytes, which have no bit in common. -/
theorem top_byte_xor_low_bytes (c : Word) :
    (c.extractLsb' 24 8).setWidth 32 <<< 24 ^^^ (c.extractLsb' 0 24).setWidth 32 = c := by
  apply BitVec.eq_of_getLsbD_eq
  intro i hi
  simp only [BitVec.getLsbD_xor, BitVec.getLsbD_shiftLeft, BitVec.getLsbD_setWidth, BitVec.getLsbD_extractLsb']
  grind

/-- The loop takes the top byte to its table entry and shifts the low three bytes, and it is linear. -/
theorem tableStep_crcTable (c : Word) : tableStep Config.crcTable c = genStep^[8] c := by
  have hlt : (c.extractLsb' 0 24).toNat < 2 ^ 24 := (c.extractLsb' 0 24).isLt
  have hlow : genStep^[8] ((c.extractLsb' 0 24).setWidth 32) = c <<< 8 := by
    rw [iterate_genStep_of_lt 8 _ (by rw [BitVec.toNat_setWidth]; omega), shiftLeft_eight_eq_append,
      BitVec.extractLsb'_setWidth_of_le (by decide), BitVec.extractLsb'_eq_self, shiftLeft_eight_eq_append]
  have htop : genStep^[8] ((c.extractLsb' 24 8).setWidth 32 <<< 24) = lutRead Config.crcTable (c.extractLsb' 24 8) :=
    (lutRead_crcTable _).symm
  rw [← congrArg genStep^[8] (top_byte_xor_low_bytes c), iterate_genStep_xor, hlow, htop, tableStep, BitVec.xor_comm]

/-- The fold with the default table is the fold a bit at a time (R65). -/
theorem update_crcTable (crc word : Word) : update Config.crcTable crc word = genStep^[32] (crc ^^^ word) := by
  simp only [update, tableStep_crcTable, ← Function.iterate_add_apply]

/-- Settles O47. -/
theorem tableFoldEqualsBitSerialFold : Obligations.TableFoldEqualsBitSerialFold :=
  update_crcTable

/-- Different words folded into one accumulator give different results (R65). -/
theorem update_crcTable_injective (crc : Word) : Function.Injective (update Config.crcTable crc) := by
  intro a b h
  rw [update_crcTable, update_crcTable] at h
  exact (BitVec.xor_right_inj crc).mp (genStep_injective.iterate 32 h)

/-- Settles O46: the fold has the linearity of the loop's rounds, and an injective map of finitely many words is
onto. -/
theorem foldIsLinearBijection : Obligations.FoldIsLinearBijection := by
  refine ⟨?_, Finite.injective_iff_bijective.mp (update_crcTable_injective 0#32),
    fun crc _ _ h => update_crcTable_injective crc h⟩
  intro a b
  simp only [update_crcTable, BitVec.zero_xor, iterate_genStep_xor]

end Sys2Proof.Machine
end

section
/-! PROOFS. FOLDW: fold one word (spec/41_fold.md R66). -/

namespace Sys2Proof.Machine

/-- What FOLDW leaves: the folded word in `ACC`, the command position, and no other field (R66). -/
theorem exec_foldw (w : Word) (s : State) :
    exec (.foldw w) s = .next { s with acc := update s.lut s.acc w, cmdIdx := s.cmdIdx + 1 } :=
  exec_eq_next_execute (.foldw w) s

/-- The digest of one full word is one fold (R66, R79). -/
theorem compute_one_word (t : Lut) (b0 b1 b2 b3 : Byte) :
    compute t [b0, b1, b2, b3] = update t 0xFFFFFFFF#32 (leWord b0 b1 b2 b3) := by
  simp [compute, computeFrom, wordAt_cons_four_zero, Config.initValue]

/-- The four table steps of the example of R66, from the word XORed into the start value. -/
theorem foldw_example_steps :
    0xFFFFFFFF#32 ^^^ 0x04030201#32 = 0xFBFCFDFE#32 ∧
    tableStep Config.crcTable 0xFBFCFDFE#32 = 0x5E0EC868#32 ∧
    tableStep Config.crcTable 0x5E0EC868#32 = 0x4AD1630D#32 ∧
    tableStep Config.crcTable 0x4AD1630D#32 = 0xCA6FABA1#32 ∧
    tableStep Config.crcTable 0xCA6FABA1#32 = 0x1DABE74F#32 := by
  decide

/-- Settles O10: the whole next state once, then the values of `ACC` that R66 names. -/
theorem foldwFoldsWord : Obligations.FoldwFoldsWord := by
  refine ⟨fun w s _ => exec_foldw w s, fun w => decode_encode (.foldw w), ?_, compute_one_word, ?_, ?_,
    foldw_example_steps⟩
  · rintro s - ⟨hzero, -⟩
    rw [exec_foldw, update_self s.lut s.acc hzero]
  · intro s _ hlut hacc
    have hvalue : update s.lut s.acc 0#32 = 0xC704DD7B#32 := by rw [hlut, hacc]; decide
    rw [exec_foldw, hvalue]
  · intro s _ hlut hacc
    obtain ⟨hxor, h1, h2, h3, h4⟩ := foldw_example_steps
    have hvalue : update s.lut s.acc 0x04030201#32 = 0x1DABE74F#32 := by rw [hlut, hacc, update, hxor, h1, h2, h3, h4]
    rw [exec_foldw, hvalue]

end Sys2Proof.Machine
end

section
/-! PROOFS. The packing of a tail (spec/42_tail.md R68, R69, R71): a synthetic word is the little-endian word of leading
zero bytes and the tail, so its shape and its injectivity are those of the little-endian word. -/

namespace Sys2Proof.Machine

/-! The shift toward the top distributes over the bytes, and the lanes it leaves are zero bytes (R69). -/

theorem pack1_eq_leWord (b0 : Byte) : pack1 b0 = leWord 0#8 0#8 0#8 b0 := by
  simp [pack1, leWord, zext32]

theorem pack2_eq_leWord (b0 b1 : Byte) : pack2 b0 b1 = leWord 0#8 0#8 b0 b1 := by
  simp [pack2, leWord, zext32, BitVec.shiftLeft_or_distrib, ← BitVec.shiftLeft_add]

theorem pack3_eq_leWord (b0 b1 b2 : Byte) : pack3 b0 b1 b2 = leWord 0#8 b0 b1 b2 := by
  simp [pack3, leWord, zext32, BitVec.shiftLeft_or_distrib, ← BitVec.shiftLeft_add]

/-- Settles O40: the source's shifts are the definitions, and the little-endian word is its bytes side by side. -/
theorem tailIsPackedTowardTheTop : Obligations.TailIsPackedTowardTheTop := by
  refine ⟨fun b0 => ⟨rfl, ?_⟩, fun b0 b1 => ⟨rfl, ?_⟩, fun b0 b1 b2 => ⟨rfl, ?_⟩⟩
  · rw [pack1_eq_leWord, leWord_eq_append]
  · rw [pack2_eq_leWord, leWord_eq_append]
  · rw [pack3_eq_leWord, leWord_eq_append]

/-- Zero bytes after the tail add nothing to a data word (R45, R69). -/
theorem leWord_zero_last (b0 b1 b2 : Byte) :
    leWord b0 b1 b2 0#8 = zext32 b0 ||| (zext32 b1 <<< 8) ||| (zext32 b2 <<< 16) := by
  simp [leWord, zext32]

theorem leWord_zero_last_two (b0 b1 : Byte) : leWord b0 b1 0#8 0#8 = zext32 b0 ||| (zext32 b1 <<< 8) := by
  simp [leWord_zero_last, zext32]

theorem leWord_zero_last_three (b0 : Byte) : leWord b0 0#8 0#8 0#8 = zext32 b0 := by
  simp [leWord_zero_last_two, zext32]

/-- Settles O41: packing shifts the data word of the tail into the top lanes. -/
theorem packingIsZeroBytesThenTail : Obligations.PackingIsZeroBytesThenTail := by
  refine ⟨fun b0 => ⟨pack1_eq_leWord b0, ?_⟩, fun b0 b1 => ⟨pack2_eq_leWord b0 b1, ?_⟩,
    fun b0 b1 b2 => ⟨pack3_eq_leWord b0 b1 b2, ?_⟩⟩
  · rw [leWord_zero_last_three, pack1]
  · rw [leWord_zero_last_two, pack2]
  · rw [leWord_zero_last, pack3, BitVec.shiftLeft_or_distrib _ (zext32 b2 <<< 16), ← BitVec.shiftLeft_add]

/-! Packing at one length loses nothing (R71): every byte is read back from its lane. -/

theorem leWord_inj {a0 a1 a2 a3 b0 b1 b2 b3 : Byte} (h : leWord a0 a1 a2 a3 = leWord b0 b1 b2 b3) :
    a0 = b0 ∧ a1 = b1 ∧ a2 = b2 ∧ a3 = b3 := by
  obtain ⟨-, hlanes, -, -⟩ := wordIsLittleEndian
  obtain ⟨ha0, ha1, ha2, ha3⟩ := hlanes a0 a1 a2 a3
  obtain ⟨hb0, hb1, hb2, hb3⟩ := hlanes b0 b1 b2 b3
  rw [h] at ha0 ha1 ha2 ha3
  exact ⟨ha0.symm.trans hb0, ha1.symm.trans hb1, ha2.symm.trans hb2, ha3.symm.trans hb3⟩

theorem pack1_inj {b c : Byte} (h : pack1 b = pack1 c) : b = c := by
  rw [pack1_eq_leWord, pack1_eq_leWord] at h
  obtain ⟨-, -, -, hb⟩ := leWord_inj h
  exact hb

theorem pack2_inj {a b c d : Byte} (h : pack2 a b = pack2 c d) : a = c ∧ b = d := by
  rw [pack2_eq_leWord, pack2_eq_leWord] at h
  obtain ⟨-, -, ha, hb⟩ := leWord_inj h
  exact ⟨ha, hb⟩

theorem pack3_inj {a b c d e f : Byte} (h : pack3 a b c = pack3 d e f) : a = d ∧ b = e ∧ c = f := by
  rw [pack3_eq_leWord, pack3_eq_leWord] at h
  obtain ⟨-, hrest⟩ := leWord_inj h
  exact hrest

/-! Across lengths, a leading zero byte of the tail stands where a shorter tail has a zero lane (R71). -/

theorem pack2_zero (b : Byte) : pack2 0#8 b = pack1 b := by
  rw [pack2_eq_leWord, pack1_eq_leWord]

theorem pack3_zero (a b : Byte) : pack3 0#8 a b = pack2 a b := by
  rw [pack3_eq_leWord, pack2_eq_leWord]

end Sys2Proof.Machine
end

section
/-! PROOFS. The digest of a byte sequence (spec/43_sequence.md R79), by its first four bytes and the rest: it is what
the commands of crc.bytes (spec/30_encoding.md R51) leave in ACC, so it unfolds as they do. -/

namespace Sys2Proof.Machine

/-- The digest is the `ACC` that the folds of `crc.bytes` leave, one after another (R51, R79). -/
theorem computeFrom_eq_foldl_expandBytes (t : Lut) (s : Word) (bytes : List Byte) :
    computeFrom t s bytes = (expandBytes bytes).foldl (fun acc i => accAfter i t acc) s := by
  obtain h | h | h | h : bytes.length % 4 = 0 ∨ bytes.length % 4 = 1 ∨ bytes.length % 4 = 2 ∨ bytes.length % 4 = 3 := by
    omega
  all_goals
    simp only [computeFrom, expandBytes, h, List.foldl_append, List.foldl_map]
    rfl

theorem computeFrom_nil (t : Lut) (s : Word) : computeFrom t s [] = s :=
  rfl

theorem computeFrom_cons_four (t : Lut) (s : Word) (b0 b1 b2 b3 : Byte) (rest : List Byte) :
    computeFrom t s (b0 :: b1 :: b2 :: b3 :: rest) = computeFrom t (update t s (leWord b0 b1 b2 b3)) rest := by
  rw [computeFrom_eq_foldl_expandBytes, computeFrom_eq_foldl_expandBytes, expandBytes_cons_four, List.foldl_cons,
    accAfter]

theorem computeFrom_one (t : Lut) (s : Word) (b0 : Byte) : computeFrom t s [b0] = update t s (pack1 b0) := by
  rw [computeFrom_eq_foldl_expandBytes, expandBytes_one]
  rfl

theorem computeFrom_two (t : Lut) (s : Word) (b0 b1 : Byte) :
    computeFrom t s [b0, b1] = update t s (pack2 b0 b1) := by
  rw [computeFrom_eq_foldl_expandBytes, expandBytes_two]
  rfl

theorem computeFrom_three (t : Lut) (s : Word) (b0 b1 b2 : Byte) :
    computeFrom t s [b0, b1, b2] = update t s (pack3 b0 b1 b2) := by
  rw [computeFrom_eq_foldl_expandBytes, expandBytes_three]
  rfl

/-- A beginning of whole words is folded first, and the rest goes on from what it leaves (R83). -/
theorem computeFrom_append (t : Lut) (s : Word) :
    ∀ pre rest : List Byte, pre.length % 4 = 0 →
      computeFrom t s (pre ++ rest) = computeFrom t (computeFrom t s pre) rest
  | [], _, _ => rfl
  | b0 :: b1 :: b2 :: b3 :: pre, rest, h => by
    have hpre : pre.length % 4 = 0 := (Nat.add_mod_right pre.length 4).symm.trans h
    rw [computeFrom_cons_four, ← computeFrom_append t _ pre rest hpre, ← computeFrom_cons_four]
    rfl

end Sys2Proof.Machine
end

section
/-! PROOFS. What collides and what does not (spec/42_tail.md R71). -/

namespace Sys2Proof.Machine

/-- Settles O53: after the common whole words each of the four inputs is one fold, of the same word. -/
theorem tailCollisions : Obligations.TailCollisions := by
  refine ⟨fun _ _ => pack1_inj, fun _ _ _ _ => pack2_inj, fun _ _ _ _ _ _ => pack3_inj, ?_,
    fun a b => (pack3_zero a b).symm, ?_⟩
  · intro b
    rw [pack3_zero, pack2_zero]
    exact ⟨rfl, rfl, pack1_eq_leWord b⟩
  · intro t s pre b hpre
    simp only [computeFrom_append t s pre _ hpre]
    rw [computeFrom_one, computeFrom_two, computeFrom_three, computeFrom_cons_four, computeFrom_nil, pack3_zero,
      pack2_zero, ← pack1_eq_leWord]
    exact ⟨rfl, rfl, rfl⟩

/-- From one accumulator, with the default table, different tails of one length give different digests: the fold and the
packing are injective (R65, R71). -/
theorem tail_eq_of_computeFrom_crcTable_eq (c : Word) (a b : List Byte) (hlen : a.length = b.length)
    (hshort : a.length < 4) (h : computeFrom Config.crcTable c a = computeFrom Config.crcTable c b) : a = b := by
  match a, b with
  | [], [] => rfl
  | [a0], [b0] =>
    rw [computeFrom_one, computeFrom_one] at h
    rw [pack1_inj (update_crcTable_injective c h)]
  | [a0, a1], [b0, b1] =>
    rw [computeFrom_two, computeFrom_two] at h
    obtain ⟨rfl, rfl⟩ := pack2_inj (update_crcTable_injective c h)
    rfl
  | [a0, a1, a2], [b0, b1, b2] =>
    rw [computeFrom_three, computeFrom_three] at h
    obtain ⟨rfl, rfl, rfl⟩ := pack3_inj (update_crcTable_injective c h)
    rfl

/-- Settles O54. -/
theorem tailsOfOneLengthNeverCollide : Obligations.TailsOfOneLengthNeverCollide := by
  intro s pre a b hpre hlen hshort h
  rw [computeFrom_append _ _ _ _ hpre, computeFrom_append _ _ _ _ hpre] at h
  exact tail_eq_of_computeFrom_crcTable_eq _ a b hlen hshort h

end Sys2Proof.Machine
end

section
/-! PROOFS. FOLDT1, FOLDT2 and FOLDT3 (spec/42_tail.md R70, R73 to R75): each is FOLDW of the packed word. -/

namespace Sys2Proof.Machine

/-! A tail command and FOLDW of the packed word leave the same state (R70). -/

theorem exec_foldt1_eq_foldw (b0 : Byte) (s : State) : exec (.foldt1 b0) s = exec (.foldw (pack1 b0)) s := by
  rw [exec_eq_next_execute, exec_eq_next_execute]
  rfl

theorem exec_foldt2_eq_foldw (b0 b1 : Byte) (s : State) : exec (.foldt2 b0 b1) s = exec (.foldw (pack2 b0 b1)) s := by
  rw [exec_eq_next_execute, exec_eq_next_execute]
  rfl

theorem exec_foldt3_eq_foldw (b0 b1 b2 : Byte) (s : State) :
    exec (.foldt3 b0 b1 b2) s = exec (.foldw (pack3 b0 b1 b2)) s := by
  rw [exec_eq_next_execute, exec_eq_next_execute]
  rfl

/-- Settles O42. -/
theorem tailFoldIsOneWordFold : Obligations.TailFoldIsOneWordFold :=
  fun s _ => ⟨fun b0 => exec_foldt1_eq_foldw b0 s, fun b0 b1 => exec_foldt2_eq_foldw b0 b1 s,
    fun b0 b1 b2 => exec_foldt3_eq_foldw b0 b1 b2 s⟩

/-! The whole next state of each tail command (R73 to R75). -/

theorem exec_foldt1 (b0 : Byte) (s : State) :
    exec (.foldt1 b0) s = .next { s with acc := update s.lut s.acc (pack1 b0), cmdIdx := s.cmdIdx + 1 } := by
  rw [exec_foldt1_eq_foldw, exec_foldw]

theorem exec_foldt2 (b0 b1 : Byte) (s : State) :
    exec (.foldt2 b0 b1) s = .next { s with acc := update s.lut s.acc (pack2 b0 b1), cmdIdx := s.cmdIdx + 1 } := by
  rw [exec_foldt2_eq_foldw, exec_foldw]

theorem exec_foldt3 (b0 b1 b2 : Byte) (s : State) :
    exec (.foldt3 b0 b1 b2) s =
      .next { s with acc := update s.lut s.acc (pack3 b0 b1 b2), cmdIdx := s.cmdIdx + 1 } := by
  rw [exec_foldt3_eq_foldw, exec_foldw]

/-- Settles O11: the example's value is evaluated with the default table. -/
theorem foldt1FoldsPackedByte : Obligations.Foldt1FoldsPackedByte := by
  refine ⟨fun b0 s _ => exec_foldt1 b0 s, fun b0 => decode_encode (.foldt1 b0), ?_, ?_, by decide, by decide,
    by decide, ?_⟩
  · intro d hd
    exact (decode_op_foldt1 d).trans (ifReservedZero_nonzero _ _ hd)
  · intro s _
    exact exec_foldt1_eq_foldw 0x00#8 s
  · intro s _ hlut hacc
    have hvalue : update s.lut s.acc (pack1 0x05#8) = 0x679C0BC9#32 := by rw [hlut, hacc]; decide
    rw [exec_foldt1, hvalue]

/-- The four table steps of the example of R74, from the packed word XORed into the accumulator. -/
theorem foldt2_example_steps :
    0x1DABE74F#32 ^^^ 0x06050000#32 = 0x1BAEE74F#32 ∧
    tableStep Config.crcTable 0x1BAEE74F#32 = 0xC9BD5F11#32 ∧
    tableStep Config.crcTable 0xC9BD5F11#32 = 0xC21C7196#32 ∧
    tableStep Config.crcTable 0xC21C7196#32 = 0x48793DF7#32 ∧
    tableStep Config.crcTable 0x48793DF7#32 = 0x6BB36ACF#32 := by
  decide

/-- The packed word of the example of R74 (spec/90_conflicts.md C1). -/
theorem pack2_example : pack2 0x05#8 0x06#8 = 0x06050000#32 := by
  decide

/-- Settles O12: the example's value comes from its table steps. -/
theorem foldt2FoldsPackedBytes : Obligations.Foldt2FoldsPackedBytes := by
  refine ⟨fun b0 b1 s _ => exec_foldt2 b0 b1 s, fun b0 b1 => decode_encode (.foldt2 b0 b1), ?_, pack2_zero, by decide,
    pack2_example, by decide, ?_, foldt2_example_steps⟩
  · intro d hd
    exact (decode_op_foldt2 d).trans (ifReservedZero_nonzero _ _ hd)
  · intro s _ hlut hacc
    obtain ⟨hxor, h1, h2, h3, h4⟩ := foldt2_example_steps
    have hvalue : update s.lut s.acc (pack2 0x05#8 0x06#8) = 0x6BB36ACF#32 := by
      rw [hlut, hacc, pack2_example, update, hxor, h1, h2, h3, h4]
    rw [exec_foldt2, hvalue]

/-- The word that the XOR leaves in the corner case of R75: three table steps only shift it, since entry 0 is 0, and the
fourth reads the entry of its byte. -/
theorem update_crcTable_low_byte :
    update Config.crcTable 0#32 0x000000FF#32 = lutRead Config.crcTable 0xFF#8 ∧
    lutRead Config.crcTable 0xFF#8 = 0xB1F740B4#32 := by
  decide

/-- Settles O13: the corner case folds the word that the XOR leaves, and the example's value is evaluated. -/
theorem foldt3FoldsPackedBytes : Obligations.Foldt3FoldsPackedBytes := by
  refine ⟨fun b0 b1 b2 s _ => exec_foldt3 b0 b1 b2 s, fun b0 b1 b2 => decode_encode (.foldt3 b0 b1 b2), ?_,
    pack3_zero, by decide, by decide, by decide, update_crcTable_low_byte, ?_, ?_⟩
  · intro d hd
    exact (decode_op_foldt3 d).trans (ifReservedZero_nonzero _ _ hd)
  · intro s _ hlut hacc
    obtain ⟨hlow, hentry⟩ := update_crcTable_low_byte
    have hxor : 0xFFFFFFFF#32 ^^^ pack3 0xFF#8 0xFF#8 0xFF#8 = 0x000000FF#32 := by decide
    have hvalue : update s.lut s.acc (pack3 0xFF#8 0xFF#8 0xFF#8) = 0xB1F740B4#32 := by
      rw [hlut, hacc, update_eq_update_zero, hxor, hlow, hentry]
    rw [exec_foldt3, hvalue]
  · intro s _ hlut hacc
    have hvalue : update s.lut s.acc (pack3 0x05#8 0x06#8 0x07#8) = 0x48682877#32 := by rw [hlut, hacc]; decide
    rw [exec_foldt3, hvalue]

end Sys2Proof.Machine
end

section
/-! PROOFS. The commands of a digest on the block (spec/43_sequence.md R79): no command of crc.bytes writes LUT_Q, so what
a list of them leaves is the ACC that its folds leave, one after another. -/

namespace Sys2Proof.Machine

/-- The rest of a list of commands goes on from the state its first command leaves (R36). -/
theorem execAll_cons (i : Instr) (is : List Instr) (s : State) : execAll (i :: is) s = execAll is (s.execute i) := by
  rw [execAll, exec_eq_next_execute]

/-- Commands other than LUTRD, one after another, write `ACC` and the command position only (R16, R20, R36). -/
theorem execAll_of_ne_lutrd (is : List Instr) (s : State) (h : ∀ i ∈ is, ∀ k, i ≠ .lutrd k) :
    execAll is s =
      .next { s with
        acc := is.foldl (fun acc i => accAfter i s.lut acc) s.acc, cmdIdx := s.cmdIdx + is.length } := by
  induction is generalizing s with
  | nil => rfl
  | cons i is ih =>
    have hlutQ : lutQAfter i s.lut s.lutQ = s.lutQ := lutQAfter_of_ne_lutrd i _ _ (h i List.mem_cons_self)
    rw [execAll_cons, ih (s.execute i) (fun j hj => h j (List.mem_cons_of_mem i hj))]
    simp only [State.execute, hlutQ, List.foldl_cons, List.length_cons, Nat.add_assoc, Nat.add_comm 1]

/-- The commands of `crc.bytes` are folds (R51). -/
theorem ne_lutrd_of_mem_expandBytes : ∀ (bytes : List Byte), ∀ i ∈ expandBytes bytes, ∀ k, i ≠ .lutrd k
  | [] => by simp [expandBytes]
  | [b0] => by simp [expandBytes_one]
  | [b0, b1] => by simp [expandBytes_two]
  | [b0, b1, b2] => by simp [expandBytes_three]
  | b0 :: b1 :: b2 :: b3 :: rest => by
    simpa [expandBytes_cons_four] using ne_lutrd_of_mem_expandBytes rest

/-- A command that sets `ACC` to a start value, then `crc.bytes`: the block takes the commands in as many steps, and the
digest from that start value stands in `ACC`. -/
theorem run_script_cons_expandBytes (first : Instr) (start : Word) (bytes : List Byte) (rest : List Pins) (s : State)
    (hfirst : ∀ k, first ≠ .lutrd k) (hstart : accAfter first s.lut s.acc = start) (hgood : s.Good)
    (hready : s.cmdReady = true) (hp : s.port = script (first :: expandBytes bytes) ++ rest) :
    Host.Core.run core (first :: expandBytes bytes).length s =
      .next { s with
        acc := computeFrom s.lut start bytes, cmdIdx := s.cmdIdx + (first :: expandBytes bytes).length,
        port := rest } := by
  have hno : ∀ i ∈ first :: expandBytes bytes, ∀ k, i ≠ .lutrd k :=
    List.forall_mem_cons.mpr ⟨hfirst, ne_lutrd_of_mem_expandBytes bytes⟩
  have hacc : (first :: expandBytes bytes).foldl (fun acc i => accAfter i s.lut acc) s.acc =
      computeFrom s.lut start bytes := by
    rw [List.foldl_cons, hstart, computeFrom_eq_foldl_expandBytes]
  rw [run_script _ rest s hgood ((s.cmdReady_eq _).mp hready) hp, ← hacc]
  exact execAll_of_ne_lutrd _ { s with port := rest } hno

/-- Settles O50: both sequences are a start value and `crc.bytes`, which is run by induction on its commands. -/
theorem scriptComputesDigest : Obligations.ScriptComputesDigest := by
  intro bytes rest s hgood hready
  constructor
  · intro hp
    exact run_script_cons_expandBytes .init Config.initValue bytes rest s (by simp) rfl hgood hready hp
  · intro v hp
    exact run_script_cons_expandBytes (.seed v) v bytes rest s (by simp) rfl hgood hready hp

end Sys2Proof.Machine
end

section
/-! PROOFS. What ACC depends on (spec/10_state.md R17, spec/43_sequence.md R82): in a safe run every edge gives the same
ACC, handshake and input whatever LUT_Q, the command position and the number of free values taken are. -/

namespace Sys2Proof.Machine

/-- What a conforming host offers at the next edge decodes to a command (R108). -/
theorem exists_command_of_conforming (s : State) (p : Pins) (rest : List Pins) (hconf : s.Conforming)
    (hp : s.port = p :: rest) (hr : p.rst = false) (hv : p.cmdValid = true) : ∃ i, decode p.frame = .command i := by
  have hcommand : isCommand (decode p.frame) = true := by
    rw [State.Conforming, hp, List.all_cons, Bool.and_eq_true] at hconf
    obtain ⟨hhead, -⟩ := hconf
    simpa [Pins.conforming, hr, hv] using hhead
  cases hd : decode p.frame with
  | command i => exact ⟨i, rfl⟩
  | refused r =>
    rw [hd] at hcommand
    cases hcommand

/-! Outside a refused run an edge settles nothing (R88). -/

theorem advanceAt_rst_of_good (c : Bool) (s : State) (p : Pins) (rest : List Pins) (hgood : s.Good)
    (h : s.port = p :: rest) (hr : p.rst = true) :
    advanceAt c s = { s with acc := Config.accReset, lutQ := Config.lutQReset, busy := false, port := rest } :=
  (advanceAt_rst c s p rest h hr).trans (State.resetEvent_of_good _ hgood)

theorem advanceAt_command_of_good (c : Bool) (s : State) (p : Pins) (rest : List Pins) (i : Instr) (hgood : s.Good)
    (h : s.port = p :: rest) (hr : p.rst = false) (hb : s.busy = false) (hv : p.cmdValid = true)
    (hd : decode p.frame = .command i) : advanceAt c s = State.execute { s with port := rest, busy := !c } i :=
  (advanceAt_command c s p rest i h hr hb hv hd).trans (State.settle_of_good _ hgood)

/-- Everything one edge of a safe run can do: of the cases of an edge, no frame is refused and nothing is settled
(R88, R108). -/
theorem advanceAt_cases_of_safe (c : Bool) (s : State) (hsafe : s.Safe) :
    (s.port = [] ∧ advanceAt c s = { s with busy := s.busy && !c }) ∨
    ∃ p rest, s.port = p :: rest ∧
      ((p.rst = true ∧
          advanceAt c s = { s with acc := Config.accReset, lutQ := Config.lutQReset, busy := false, port := rest }) ∨
       (p.rst = false ∧ s.busy = true ∧
          advanceAt c s = { s with busy := !c, port := if p.cmdValid then p :: rest else rest }) ∨
       (p.rst = false ∧ s.busy = false ∧ p.cmdValid = false ∧ advanceAt c s = { s with port := rest }) ∨
       (p.rst = false ∧ s.busy = false ∧ p.cmdValid = true ∧ ∃ i, decode p.frame = .command i ∧
          advanceAt c s = State.execute { s with port := rest, busy := !c } i)) := by
  obtain ⟨hgood, hconf⟩ := hsafe
  obtain hnil | ⟨p, rest, hp, ⟨hr, -⟩ | hbusy | hidle | ⟨hr, hb, hv, i, hd, -⟩ | ⟨hr, -, hv, r, hd, -⟩⟩ :=
    advanceAt_cases c s
  · exact .inl hnil
  · exact .inr ⟨p, rest, hp, .inl ⟨hr, advanceAt_rst_of_good c s p rest hgood hp hr⟩⟩
  · exact .inr ⟨p, rest, hp, .inr (.inl hbusy)⟩
  · exact .inr ⟨p, rest, hp, .inr (.inr (.inl hidle))⟩
  · have hcommand := advanceAt_command_of_good c s p rest i hgood hp hr hb hv hd
    exact .inr ⟨p, rest, hp, .inr (.inr (.inr ⟨hr, hb, hv, i, hd, hcommand⟩))⟩
  · obtain ⟨i, hi⟩ := exists_command_of_conforming s p rest hconf hp hr hv
    rw [hd] at hi
    cases hi

/-- Every edge of a safe run leaves it safe: the mark stays, and what is left of a conforming input is conforming. -/
theorem advanceAt_safe (c : Bool) (s : State) (hsafe : s.Safe) : (advanceAt c s).Safe := by
  obtain ⟨hgood, hconf⟩ := hsafe
  obtain ⟨-, h⟩ | ⟨p, rest, hp, hedge⟩ := advanceAt_cases_of_safe c s ⟨hgood, hconf⟩
  · rw [h]
    exact ⟨hgood, hconf⟩
  · rw [State.Conforming, hp] at hconf
    have hrest : rest.all Pins.conforming = true := (Bool.and_eq_true_iff.mp hconf).2
    obtain ⟨-, h⟩ | ⟨-, -, h⟩ | ⟨-, -, -, h⟩ | ⟨-, -, -, i, -, h⟩ := hedge
    · rw [h]
      exact ⟨hgood, hrest⟩
    · rw [h]
      refine ⟨hgood, ?_⟩
      cases p.cmdValid
      · exact hrest
      · exact hconf
    · rw [h]
      exact ⟨hgood, hrest⟩
    · rw [h]
      exact ⟨hgood, hrest⟩

/-- The state with `LUT_Q`, the command position and the free-value counter forgotten. -/
def State.forgetUnread (s : State) : State := { s with lutQ := 0#32, cmdIdx := 0, draws := 0 }

@[simp] theorem State.forgetUnread_acc (s : State) : s.forgetUnread.acc = s.acc := rfl

/-- Forgetting before an edge of a safe run changes nothing but what is forgotten after it. -/
theorem advanceAt_forgetUnread (c : Bool) (s : State) (hsafe : s.Safe) :
    (advanceAt c s.forgetUnread).forgetUnread = (advanceAt c s).forgetUnread := by
  have hgood : s.Good := hsafe.1
  obtain ⟨hp, h⟩ | ⟨p, rest, hp, ⟨hr, h⟩ | ⟨hr, hb, h⟩ | ⟨hr, hb, hv, h⟩ | ⟨hr, hb, hv, i, hd, h⟩⟩ :=
    advanceAt_cases_of_safe c s hsafe
  · rw [h, advanceAt_nil c s.forgetUnread hp]
    rfl
  · rw [h, advanceAt_rst_of_good c s.forgetUnread p rest hgood hp hr]
    rfl
  · rw [h, advanceAt_busy c s.forgetUnread p rest hp hr hb]
    rfl
  · rw [h, advanceAt_idle c s.forgetUnread p rest hp hr hb hv]
    rfl
  · rw [h, advanceAt_command_of_good c s.forgetUnread p rest i hgood hp hr hb hv hd]
    rfl

/-- Forgetting before a safe run changes nothing but what is forgotten after it. -/
theorem clockedRun_forgetUnread (choices : List Bool) (s : State) (hsafe : s.Safe) :
    (clockedRun choices s.forgetUnread).forgetUnread = (clockedRun choices s).forgetUnread := by
  induction choices generalizing s with
  | nil => rfl
  | cons c cs ih =>
    calc (clockedRun cs (advanceAt c s.forgetUnread)).forgetUnread
        = (clockedRun cs (advanceAt c s.forgetUnread).forgetUnread).forgetUnread :=
          (ih _ (advanceAt_safe c s.forgetUnread hsafe)).symm
      _ = (clockedRun cs (advanceAt c s).forgetUnread).forgetUnread := by rw [advanceAt_forgetUnread c s hsafe]
      _ = (clockedRun cs (advanceAt c s)).forgetUnread := ih _ (advanceAt_safe c s hsafe)

/-- Settles O35: the two runs are one run once what no edge reads is forgotten. -/
theorem accumulatorIsDeterminedByCommands : Obligations.AccumulatorIsDeterminedByCommands := by
  intro choices s s' hsafe hsafe' hacc hlut hbusy hport
  have hmark : s.refused = s'.refused := hsafe.1.trans hsafe'.1.symm
  have hstart : s.forgetUnread = s'.forgetUnread := by
    simp only [State.forgetUnread, hacc, hlut, hbusy, hmark, hport]
  have hend : (clockedRun choices s).forgetUnread = (clockedRun choices s').forgetUnread := by
    rw [← clockedRun_forgetUnread choices s hsafe, hstart, clockedRun_forgetUnread choices s' hsafe']
  rw [← State.forgetUnread_acc, hend, State.forgetUnread_acc]

end Sys2Proof.Machine
end

section
/-! PROOFS. The digest of a sequence in parts (spec/43_sequence.md R79 to R84). -/

namespace Sys2Proof.Machine

/-- Settles O49. -/
theorem digestUnfoldsWordByWord : Obligations.DigestUnfoldsWordByWord :=
  ⟨computeFrom_cons_four, computeFrom_one, computeFrom_two, computeFrom_three⟩

/-- Settles O51. -/
theorem chainingAtWordBoundary : Obligations.ChainingAtWordBoundary :=
  fun t s a b ha => (computeFrom_append t s a b ha).symm

/-- Settles O52, by induction on the chunks: each is a beginning of whole words of what is left. -/
theorem chunkingKeepsDigest : Obligations.ChunkingKeepsDigest := by
  intro t s chunks last hchunks
  induction chunks generalizing s with
  | nil => rfl
  | cons c cs ih =>
    obtain ⟨hc, hcs⟩ := List.forall_mem_cons.mp hchunks
    rw [List.foldl_cons, ih _ hcs, List.flatten_cons, List.append_assoc, computeFrom_append t s c _ hc]

/-- Settles O48. -/
theorem emptyInputDigest : Obligations.EmptyInputDigest :=
  ⟨rfl, fun t => computeFrom_nil t Config.initValue, computeFrom_nil⟩

end Sys2Proof.Machine
end

section
/-! PROOFS. NOP, INIT and SEED (spec/43_sequence.md R76 to R78): the whole next state of each. -/

namespace Sys2Proof.Machine

theorem exec_nop (s : State) : exec .nop s = .next { s with cmdIdx := s.cmdIdx + 1 } :=
  exec_eq_next_execute .nop s

theorem exec_init (s : State) : exec .init s = .next { s with acc := 0xFFFFFFFF#32, cmdIdx := s.cmdIdx + 1 } :=
  exec_eq_next_execute .init s

theorem exec_seed (v : Word) (s : State) : exec (.seed v) s = .next { s with acc := v, cmdIdx := s.cmdIdx + 1 } :=
  exec_eq_next_execute (.seed v) s

/-- Settles O7. -/
theorem nopOnlyAdvances : Obligations.NopOnlyAdvances := by
  refine ⟨fun s _ => exec_nop s, decode_encode .nop, ?_⟩
  intro d hd
  exact (decode_op_nop d).trans (ifReservedZero_nonzero d _ hd)

/-- Settles O8: a second INIT is the idempotence of O18, and reset leaves the start value already. -/
theorem initSetsStartValue : Obligations.InitSetsStartValue := by
  refine ⟨fun s _ => exec_init s, ?_, exec_init State.reset, decode_encode .init, ?_⟩
  · intro s t hgood h
    exact idempotentCommands .init s t hgood (.inr (.inl rfl)) h
  · intro d hd
    exact (decode_op_init d).trans (ifReservedZero_nonzero d _ hd)

/-- Settles O9: a fold of 0 into 0 is a word folded into itself. -/
theorem seedLoadsAccumulator : Obligations.SeedLoadsAccumulator := by
  refine ⟨fun v s _ => exec_seed v s, ?_, ?_, fun v => decode_encode (.seed v), decode_encode (.seed 0x1DABE74F#32)⟩
  · intro s _
    rw [exec_seed, exec_init]
  · intro s _ hzero
    have hrun : execAll [.seed 0#32, .foldw 0#32] s =
        .next { s with acc := update s.lut 0#32 0#32, cmdIdx := s.cmdIdx + 2 } :=
      execAll_of_ne_lutrd [.seed 0#32, .foldw 0#32] s (by simp)
    rw [hrun, update_self s.lut 0#32 hzero]

end Sys2Proof.Machine
end

section
/-! PROOFS. Exceptions (spec/60_exceptions.md): no command faults (R86), a reserved frame is refused (R88), the refused
mark is set by that alone (R89), and reset wins at its edge (R91). -/

namespace Sys2Proof.Machine

/-- A clock edge answers a next state with the refused mark as it was, or refuses a frame without meaning. -/
theorem clockEdge_next_or_refused (c : Bool) (s : State) :
    (∃ t, clockEdge c s = .next t ∧ t.refused = s.refused) ∨
    ∃ r, clockEdge c s = .refused (.undefinedFrame r) := by
  obtain ⟨-, h⟩ | ⟨p, rest, -, ⟨-, h⟩ | ⟨-, -, h⟩ | ⟨-, -, -, h⟩ | ⟨-, -, -, h⟩⟩ := clockEdge_cases c s
  · exact .inl ⟨_, h, rfl⟩
  · exact .inl ⟨_, h, State.resetEvent_refused _⟩
  · exact .inl ⟨_, h, rfl⟩
  · cases hd : decode p.frame with
    | command i =>
      rw [accept_command c p.frame _ i hd, exec_eq_next_execute, settleOutcome_next] at h
      exact .inl ⟨_, h, State.settle_refused _⟩
    | refused r => exact .inr ⟨r, h.trans (accept_refused c p.frame _ r hd)⟩
  · exact .inl ⟨_, h, rfl⟩

/-- After an edge of a run the mark is set exactly when it was set before or the edge refused a frame (R89). -/
theorem refused_advanceAt_iff (c : Bool) (s : State) :
    (advanceAt c s).refused = true ↔
      s.refused = true ∨ ∃ r, clockEdge c s = .refused (.undefinedFrame r) := by
  obtain ⟨t, hedge, hmark⟩ | ⟨r, hedge⟩ := clockEdge_next_or_refused c s
  · simp [advanceAt_next c s t hedge, hedge, hmark]
  · simp [advanceAt_refused c s _ hedge, hedge]

/-- A run whose mark is set keeps it at every edge, resets among them (R89). -/
theorem clockedRun_refused_of_refused (choices : List Bool) (s : State) (h : s.refused = true) :
    (clockedRun choices s).refused = true := by
  induction choices generalizing s with
  | nil => exact h
  | cons c cs ih => exact ih (advanceAt c s) ((refused_advanceAt_iff c s).mpr (.inl h))

/-- A state whose mark is set has no result (R110). -/
theorem State.result_of_refused (s : State) (h : s.refused = true) : s.result = none := by
  simp [State.result, h]

/-- Settles O21: an edge other than a refusal leaves the mark as it was; induction on the edges keeps it set. -/
theorem refusedMarkIsNeverCleared : Obligations.RefusedMarkIsNeverCleared := by
  refine ⟨rfl, refused_advanceAt_iff, ?_⟩
  intro choices s h
  have hmark := clockedRun_refused_of_refused choices s h
  exact ⟨hmark, State.result_of_refused _ hmark⟩

/-- Settles O15: a command's answer is its executed state, and there is no fault to answer. -/
theorem noCommandFaults : Obligations.NoCommandFaults :=
  ⟨fun i s => ⟨s.execute i, exec_eq_next_execute i s⟩, fun _ _ r => nomatch r⟩

/-- Settles O20: the run goes on in the state after a refused frame. -/
theorem reservedFrameIsRefused : Obligations.ReservedFrameIsRefused := by
  rintro s f rest r c - hready ⟨p, hp, hr, hv, rfl⟩ hd
  have hb : s.busy = false := (s.cmdReady_eq _).mp hready
  have hedge : clockEdge c s = .refused (.undefinedFrame r) :=
    (clockEdge_offer c s p rest hp hr hb hv).trans (accept_refused c p.frame _ r hd)
  refine ⟨hedge, ?_⟩
  rw [advanceAt_refused c s _ hedge]
  simp [hp]

/-- Settles O23: the reset state (O22) holds of the input only what follows the reset, and nothing of `busy` or of the
completion choice. -/
theorem resetWinsOverAcceptance : Obligations.ResetWinsOverAcceptance := by
  obtain ⟨-, hreset, -⟩ := resetValues
  intro c s p rest hgood hp hr
  have hedge := hreset c s p rest hgood hp hr
  refine ⟨⟨_, hedge, rfl, rfl, rfl, rfl⟩, ?_⟩
  intro q c' busy' hq
  rw [hedge]
  exact hreset c' { s with port := q :: rest, busy := busy' } q rest hgood rfl hq

end Sys2Proof.Machine
end

section
/-! PROOFS. Instances side by side (spec/60_exceptions.md R97): a step of one is a change of the list of instances at its
own position. -/

namespace Sys2Proof.Machine

/-- Steps of two instances commute (R97). -/
theorem Platform.advanceBlock_comm (k j : Nat) (m : Platform) (h : j ≠ k) :
    (m.advanceBlock k).advanceBlock j = (m.advanceBlock j).advanceBlock k :=
  Platform.ext (List.modify_modify_ne advance advance m.blocks h.symm)

/-- After a step of block `k` every block is one from before, or the step of one. -/
theorem Platform.mem_advanceBlock (k : Nat) (m : Platform) (s : State) (h : s ∈ (m.advanceBlock k).blocks) :
    ∃ u ∈ m.blocks, s = u ∨ s = advance u := by
  obtain ⟨j, hj⟩ := List.mem_iff_getElem?.mp h
  rw [Platform.advanceBlock_blocks, List.getElem?_modify] at hj
  obtain ⟨u, hu, rfl⟩ := Option.map_eq_some_iff.mp hj
  refine ⟨u, List.mem_of_getElem? hu, ?_⟩
  split
  · exact .inr rfl
  · exact .inl rfl

/-- Instances that share a table go on sharing it: no step of a run writes the table (R19, R37). -/
theorem Platform.advanceBlock_sharesLut (t : Lut) (k : Nat) (m : Platform) (h : m.sharesLut t) :
    (m.advanceBlock k).sharesLut t := by
  intro s hs
  obtain ⟨u, hu, rfl | rfl⟩ := m.mem_advanceBlock k s hs
  · exact h s hu
  · exact (advanceAt_lut true u).trans (h u hu)

/-- After reset all blocks read the same table. -/
theorem Platform.reset_sharesLut (n : Nat) (h : 1 ≤ n) : (Platform.reset n h).sharesLut State.reset.lut := by
  intro s hs
  rw [List.eq_of_mem_replicate hs]

/-- Settles O56: what the step of block `k` does to the list is read at each position, and the list keeps its length. -/
theorem instancesAreIndependent : Obligations.InstancesAreIndependent := by
  refine ⟨?_, ?_, Platform.advanceBlock_comm, Platform.advanceBlock_sharesLut, ?_, ?_⟩
  · intro k j m hjk
    exact List.getElem?_modify_ne advance m.blocks hjk.symm
  · intro k m
    exact List.getElem?_modify_eq advance k m.blocks
  · intro n h
    exact ⟨List.length_replicate, Platform.reset_sharesLut n h⟩
  · intro k m
    exact ⟨m.inRange, List.length_modify advance m.blocks k⟩

end Sys2Proof.Machine
end

section
/-! PROOFS. Hazards of the host's input (spec/70_reset_and_hazards.md R108): a conforming host is never refused. -/

namespace Sys2Proof.Machine

/-- An edge of a safe run is no refusal, since a refusal would set the mark (R89): it answers the next state of the
run. -/
theorem clockEdge_of_safe (c : Bool) (s : State) (hsafe : s.Safe) : clockEdge c s = .next (advanceAt c s) := by
  obtain ⟨t, hedge, -⟩ | hrefused := clockEdge_next_or_refused c s
  · rw [hedge, advanceAt_next c s t hedge]
  · have hmark : (advanceAt c s).refused = true := (refused_advanceAt_iff c s).mpr (.inr hrefused)
    obtain ⟨hgood, -⟩ := advanceAt_safe c s hsafe
    exact absurd (hmark.symm.trans hgood) (by decide)

/-- Every clocked run from a safe state is safe at its end. -/
theorem clockedRun_safe (choices : List Bool) (s : State) (hsafe : s.Safe) : (clockedRun choices s).Safe := by
  induction choices generalizing s with
  | nil => exact hsafe
  | cons c cs ih => exact ih (advanceAt c s) (advanceAt_safe c s hsafe)

/-- Settles O34: safety is kept by every edge, and by induction on the edges by every run. -/
theorem conformingHostIsNeverRefused : Obligations.ConformingHostIsNeverRefused :=
  ⟨fun c s hsafe => ⟨advanceAt c s, clockEdge_of_safe c s hsafe, advanceAt_safe c s hsafe⟩, clockedRun_safe⟩

end Sys2Proof.Machine
end

section
/-! PROOFS. A computation right after reset (spec/70_reset_and_hazards.md R102): reset leaves in ACC the start value
that INIT writes, so the folds that follow begin alike. -/

namespace Sys2Proof.Machine

/-- Steps that answer a next state begin with one that does. -/
theorem exists_step_of_run_next (M : Host.Core) (n : Nat) (s t : M.State) (h : M.run (n + 1) s = .next t) :
    ∃ u, M.step s = .next u ∧ M.run n u = .next t := by
  rw [Host.Core.run] at h
  cases hs : M.step s with
  | next u =>
    rw [hs] at h
    exact ⟨u, rfl, h⟩
  | fault r =>
    rw [hs] at h
    cases h
  | refused r =>
    rw [hs] at h
    cases h

/-- Steps of the core that stop at no fault and no refusal are the steps of the run. -/
theorem run_eq_of_coreRun_next (n : Nat) (s t : State) (h : Host.Core.run core n s = .next t) : run n s = t := by
  induction n generalizing s with
  | zero =>
    cases h
    rfl
  | succ n ih =>
    obtain ⟨u, hstep, hrest⟩ := exists_step_of_run_next core n s t h
    rw [run, advance, advanceAt_next true s u hstep, ih u hrest]

/-- Commands other than LUTRD that are driven into a ready block with nothing else to come leave their folds in `ACC`,
one after another (R36). -/
theorem run_drive_script_acc (is : List Instr) (s : State) (hno : ∀ i ∈ is, ∀ k, i ≠ .lutrd k) (hgood : s.Good)
    (hb : s.busy = false) (hp : s.port = []) :
    (run is.length (s.drive (script is))).acc = is.foldl (fun acc i => accAfter i s.lut acc) s.acc := by
  have hport : (s.drive (script is)).port = script is ++ [] := by
    rw [State.drive_port, hp, List.nil_append, List.append_nil]
  have hcore := (run_script is [] (s.drive (script is)) hgood hb hport).trans (execAll_of_ne_lutrd is _ hno)
  rw [run_eq_of_coreRun_next is.length _ _ hcore]
  rfl

/-- Settles O55: the state a reset leaves is known (O22); its `ACC` is the start value of the digest, and INIT writes
that value again. -/
theorem resetStandsForInit : Obligations.ResetStandsForInit := by
  intro bytes s t p hgood hp hr hstep
  obtain ⟨-, hreset, -⟩ := resetValues
  have ht : t = { s with acc := Config.initValue, lutQ := 0#32, busy := false, port := [] } :=
    Host.Outcome.next.inj (hstep.symm.trans (hreset true s p [] hgood hp hr))
  have hbytes := ne_lutrd_of_mem_expandBytes bytes
  have hcompute : ∀ i ∈ expandCompute bytes, ∀ k, i ≠ .lutrd k := List.forall_mem_cons.mpr ⟨by simp, hbytes⟩
  have hdigest : (expandBytes bytes).foldl (fun acc i => accAfter i s.lut acc) Config.initValue = compute s.lut bytes :=
    (computeFrom_eq_foldl_expandBytes s.lut Config.initValue bytes).symm
  subst ht
  constructor
  · refine (run_drive_script_acc _ _ hbytes ?_ rfl rfl).trans hdigest
    exact hgood
  · refine (run_drive_script_acc _ _ hcompute ?_ rfl rfl).trans hdigest
    exact hgood

end Sys2Proof.Machine
end

section
/-! PROOFS. The outputs (spec/70_reset_and_hazards.md R104) and the result of a run (R110). -/

namespace Sys2Proof.Machine

/-- A ready block that is not reset shows `ACC` (R104). -/
theorem State.crcOut_of_ready (s : State) (draw : Word) (h : s.cmdReady = true) : s.crcOut false draw = s.acc := by
  simp [State.crcOut, h]

/-- A ready block that is not reset shows `LUT_Q` (R104). -/
theorem State.lutOut_of_ready (s : State) (draw : Word) (h : s.cmdReady = true) : s.lutOut false draw = s.lutQ := by
  simp [State.lutOut, h]

/-- Neither output claims anything while the block is busy or in reset (R104; log 5). -/
theorem ready_and_not_rst_eq_false (s : State) (rst : Bool) (h : s.cmdReady = false ∨ rst = true) :
    (s.cmdReady && !rst) = false := by
  obtain h | h := h <;> simp [h]

theorem State.crcOut_of_not_ready (s : State) (rst : Bool) (draw : Word) (h : s.cmdReady = false ∨ rst = true) :
    s.crcOut rst draw = draw := by
  rw [State.crcOut, ready_and_not_rst_eq_false s rst h, if_neg Bool.false_ne_true]

theorem State.lutOut_of_not_ready (s : State) (rst : Bool) (draw : Word) (h : s.cmdReady = false ∨ rst = true) :
    s.lutOut rst draw = draw := by
  rw [State.lutOut, ready_and_not_rst_eq_false s rst h, if_neg Bool.false_ne_true]

/-- Settles O26: where a sample is the draw, the value wanted is the draw that shows it. -/
theorem outputsValidWhenReady : Obligations.OutputsValidWhenReady := by
  constructor
  · intro s draw _ hready
    exact ⟨s.crcOut_of_ready draw hready, s.lutOut_of_ready draw hready⟩
  · intro s rst v _ h
    exact ⟨⟨v, s.crcOut_of_not_ready rst v h⟩, ⟨v, s.lutOut_of_not_ready rst v h⟩⟩

/-- A block at the end of a run is ready (R110). -/
theorem State.cmdReady_of_atEnd (s : State) (h : s.atEnd = true) : s.cmdReady = true := by
  rw [State.atEnd, Bool.and_eq_true] at h
  exact h.1

/-- The result of a run without refusal is the two registers at its end (R110). -/
theorem State.result_of_atEnd (s : State) (hgood : s.Good) (hend : s.atEnd = true) :
    s.result = some ⟨s.acc, s.lutQ⟩ := by
  simp [State.result, hend, show s.refused = false from hgood]

/-- A run that is not at its end has no result yet (R110). -/
theorem State.result_of_not_atEnd (s : State) (h : s.atEnd = false) : s.result = none := by
  simp [State.result, h]

/-- Settles O36: a block at the end of a run is ready, so its outputs are valid (O26). -/
theorem runResultIsTheOutputs : Obligations.RunResultIsTheOutputs := by
  refine ⟨?_, State.result_of_refused, State.result_of_not_atEnd⟩
  intro s hgood hend
  refine ⟨⟨s.acc, s.lutQ⟩, s.result_of_atEnd hgood hend, ?_⟩
  intro draw
  exact outputsValidWhenReady.1 s draw hgood (s.cmdReady_of_atEnd hend)

end Sys2Proof.Machine
end
